-- ==== Sys2Proof/Word.lean ====
section
/-! DEFINITION. The word types of the device: a command is one 64-bit word, a register and a response one
32-bit word, an output sample one signed 16-bit word (R75, R80, R100). -/

namespace Sys2Proof

/-- A command word as it arrives at a port (R100). -/
abbrev CmdWord := BitVec 64

/-- A 32-bit word: a register, a phase, a response (R75, R78). -/
abbrev Word := BitVec 32

/-- A signed 16-bit output sample (R77). -/
abbrev Sample := BitVec 16

/-- A byte, used only where a host lays words out in bytes (R80). -/
abbrev Byte := BitVec 8

end Sys2Proof
end

