-- ==== Sys2Proof/Config.lean ====
section
/-! DEFINITION. What an implementation fixes (the parameters of R7) and the free values of the model: constants
without a body, about which nothing can be proved. -/

namespace Sys2Proof

/-- The parameters the document leaves open (R7). No command changes one. `sine` has 256 entries and
`drawbarMult2` nine; `Params.WellFormed` (WellFormed.lean) states the constraints of R7. -/
structure Params where
  /-- `NV`, the number of voice slots. -/
  nv : Nat
  /-- `EVQ_DEPTH`, the capacity of the event queue. -/
  evqDepth : Nat
  /-- `SR_MIN`, the lowest sample rate INIT accepts. -/
  srMin : Nat
  /-- `SR_MAX`, the highest sample rate INIT accepts. -/
  srMax : Nat
  /-- `SINE[0..255]`, signed Q1.15 (R156). -/
  sine : List Int
  /-- `DRAWBAR_MULT2[0..8]`, frequency ratios in halves of the fundamental. -/
  drawbarMult2 : List Nat
  /-- `VIB_RATE`, UQ16.16 Hz. -/
  vibRate : Word
  /-- `LESLIE_K`, UQ16.16 Hz per unit of rotor speed. -/
  leslieK : Word
  /-- `LESLIE_ACCEL`, UQ16.16 speed units per second. -/
  leslieAccel : Word
  /-- `LESLIE_DEPTH`, UQ1.15. -/
  leslieDepth : BitVec 16
  /-- `POWER_MAX`, UQ16.16. -/
  powerMax : Word
deriving DecidableEq, Repr

/-- Whose turn it is: one of the three agents of R70, or an assertion of the reset input (R300). -/
inductive Turn where
  /-- the C-port takes one command word (R71 (a)) -/
  | control
  /-- the R-port takes one command word (R71 (b)) -/
  | audio
  /-- the engine takes one chunk start or sample step (R71 (c), (d)) -/
  | engine
  /-- the reset input is asserted and released (R300) -/
  | reset
deriving DecidableEq, Repr, Inhabited

/-- FREE VALUE (DESIGN CHOICE, safe; log entry 1). The interleaving of the agents, which the device does not fix (R71, I16): whose turn
it is at the `k`-th turn that `State.sched` does not fix. -/
opaque Config.freeTurn : Nat → Turn

/-- FREE VALUE (DESIGN CHOICE, safe; log entry 8). The u32 that INIT stores in `vibInc` where `VIB_RATE * 65536 / sr`, the argument, does not
fit 32 bits: R54 gives the register 32 bits and states no wrap and no saturation. -/
opaque Config.wideVibInc : Nat → Word

end Sys2Proof
end

