-- ==== Sys2Proof/Machine/Defaults.lean ====
section
/-! DEFINITION. The default configuration (R7, D42): what spec/95_test_vectors.md uses and what State.reset carries. -/

namespace Sys2Proof.Machine

/-- Row 0 of the listing of R156. -/
def sineRow0 : List Int := [0, 804, 1608, 2410, 3212, 4011, 4808, 5602, 6393, 7179, 7962, 8739, 9512, 10278, 11039, 11793]

/-- Row 1 of the listing of R156. -/
def sineRow1 : List Int := [12539, 13279, 14010, 14732, 15446, 16151, 16846, 17530, 18204, 18868, 19519, 20159, 20787, 21403, 22005, 22594]

/-- Row 2 of the listing of R156. -/
def sineRow2 : List Int := [23170, 23731, 24279, 24811, 25329, 25832, 26319, 26790, 27245, 27683, 28105, 28510, 28898, 29268, 29621, 29956]

/-- Row 3 of the listing of R156. -/
def sineRow3 : List Int := [30273, 30571, 30852, 31113, 31356, 31580, 31785, 31971, 32137, 32285, 32412, 32521, 32609, 32678, 32728, 32757]

/-- Row 4 of the listing of R156. -/
def sineRow4 : List Int := [32767, 32757, 32728, 32678, 32609, 32521, 32412, 32285, 32137, 31971, 31785, 31580, 31356, 31113, 30852, 30571]

/-- Row 5 of the listing of R156. -/
def sineRow5 : List Int := [30273, 29956, 29621, 29268, 28898, 28510, 28105, 27683, 27245, 26790, 26319, 25832, 25329, 24811, 24279, 23731]

/-- Row 6 of the listing of R156. -/
def sineRow6 : List Int := [23170, 22594, 22005, 21403, 20787, 20159, 19519, 18868, 18204, 17530, 16846, 16151, 15446, 14732, 14010, 13279]

/-- Row 7 of the listing of R156. -/
def sineRow7 : List Int := [12539, 11793, 11039, 10278, 9512, 8739, 7962, 7179, 6393, 5602, 4808, 4011, 3212, 2410, 1608, 804]

/-- Rows 0 to 7 of the sine table, the first half period (R156). -/
def sineHalf : List Int :=
  sineRow0 ++ sineRow1 ++ sineRow2 ++ sineRow3 ++ sineRow4 ++ sineRow5 ++ sineRow6 ++ sineRow7

/-- The default sine table: rows 8 to 15 are the negatives of rows 0 to 7 (R156). -/
def sineTable : List Int := sineHalf ++ sineHalf.map (fun x => -x)

/-- The default drawbar ratios in halves of the fundamental (R7, R154). PRESUMED (general knowledge, G1), unsafe only for the
numbers of the default configuration: log entry 16. -/
def drawbarRatios : List Nat := [1, 3, 2, 4, 6, 8, 10, 12, 16]

/-- The defaults of R7. -/
def defaultParams : Params where
  nv := 16
  evqDepth := 64
  srMin := 8000
  srMax := 192000
  sine := sineTable
  drawbarMult2 := drawbarRatios
  vibRate := 0x00050000
  leslieK := 0x00010000
  leslieAccel := 0x00020000
  leslieDepth := 0x2000
  powerMax := 0x00080000

end Sys2Proof.Machine
end

