-- ==== Sys2Proof/Machine/State.lean ====
section
/-! DEFINITION. The state of the device as plain data, the reasons a step can stop, and the machine right after hardware
reset (10_state.md). -/

namespace Sys2Proof.Machine

/-- Why a step stops with a fault: never. The device has no exception and no trap; every failure discards a command, sets
a sticky flag and goes on (R275, R276, R282). So the type has no constructor: nothing raises a fault (DEDUCED, log
entry 9). -/
inductive Fault where
deriving DecidableEq, Repr

/-- Why a step is refused. -/
inductive Refusal where
  /-- Raised by an arm of `exec` whose instruction has no meaning yet; no arm does. Safe: the model stops. -/
  | notModelled (mnemonic : String)
deriving DecidableEq, Repr

/-- The stages of a voice's envelope: 0 Idle, 1 Attack, 2 Decay, 3 Sustain, 4 Release; 5 to 7 never occur (R49; DEDUCED, log
entry 11). -/
inductive Stage where
  | idle | attack | decay | sustain | release
deriving DecidableEq, Repr

/-- The timbre mode tag: 0 Drawbar, 1 Harmonic (R44). -/
inductive TimbreMode where
  | drawbar | harmonic
deriving DecidableEq, Repr

/-- The four conditions that discard a command (R25, R276). -/
inductive Cond where
  | badCmd | badIdx | evqOvf | notInit
deriving DecidableEq, Repr

/-- The sticky flags (R25). -/
structure Flags where
  badCmd : Bool
  badIdx : Bool
  evqOvf : Bool
  notInit : Bool
deriving DecidableEq, Repr

/-- A parameter bank: 13 parameter registers, nine drawbars, sixteen harmonic levels and the mode tag (R27, R42, R43, R44). -/
structure Bank where
  p : Vector Word 13
  db : Vector Word 9
  hl : Vector Word 16
  mode : TimbreMode
deriving DecidableEq, Repr

/-- The kinds of event (R46). -/
inductive EventKind where
  | play | stop | pedal
deriving DecidableEq, Repr

/-- A queued note command (R46): `arg` is the velocity of a PLAY, and holds the flag of a STOP or PEDAL in bit 0. -/
structure Event where
  kind : EventKind
  note : BitVec 7
  arg : BitVec 7
  freq : Word
deriving DecidableEq, Repr

/-- One voice slot (R49). -/
structure Voice where
  stage : Stage
  note : BitVec 7
  vel : BitVec 7
  freq : Word
  phase : Vector Word 16
  level : BitVec 31
  relStep : BitVec 31
  sustained : Bool
  serial : Word
deriving DecidableEq, Repr

/-- The voice pool (R2): the voice file (R49), the sustain pedal (R47) and the age counter (R48). -/
structure Pool where
  voices : List Voice
  pedal : Bool
  noteSerial : Word
deriving DecidableEq, Repr

/-- The block-rate registers (R55). -/
structure BlockRate where
  vib : Word
  g : Word
  incHalf : List (BitVec 48)
  attN : BitVec 48
  decN : BitVec 48
  attStep : BitVec 31
  decStep : BitVec 31
  susLvl : BitVec 31
  rotorInc : Word
deriving DecidableEq, Repr

/-- The render sequencer (R56): `left` is L, the samples left in the current chunk (DEDUCED, log
entry 12). -/
structure Sequencer where
  chN : BitVec 8
  rem : Word
  sIdx : Word
  left : Nat
  live : Bool
deriving DecidableEq, Repr

/-- The output space (R77) in canonical form: (address, sample) pairs, addresses strictly rising. An address numbers an
element OUT[c][s] of one RENDER (`outAddr`, Memory.lean); an element not listed has not been written (log entry 5). -/
abbrev Memory := List (Nat × Sample)

/-- The whole machine. Groups 1 to 6 are those of R20; the rest are the device's outputs and inputs and the fields of the
model's own (INVENTORY.md). -/
structure State where
  /-- the parameters of R7, changed by nothing (log entry 4) -/
  cfg : Params
  inited : Bool
  rendering : Bool
  sr : Word
  initStat : BitVec 8
  flags : Flags
  shadow : Bank
  active : Bank
  evq : List Event
  pool : Pool
  leslieCur : Word
  rotorPhase : Word
  vibPhase : Word
  vibInc : Word
  br : BlockRate
  seq : Sequencer
  /-- the response stream, first response first (R78; log entry 6) -/
  resp : List Word
  /-- the output space (R77; log entry 5) -/
  out : Memory
  /-- how many RENDERs with `n > 0` have been accepted (log entry 5) -/
  renderNo : Nat
  /-- the words offered at the C-port and not yet consumed (R57, R72; log entry 3) -/
  cIn : List CmdWord
  /-- the words offered at the R-port and not yet consumed (R57, R73; log entry 3) -/
  rIn : List CmdWord
  /-- the turns the environment has fixed; after them `Config.freeTurn` decides (R71; log entry 1) -/
  sched : List Turn
  /-- the argument of the free value `Config.freeTurn` (log entry 1) -/
  tick : Nat
deriving DecidableEq, Repr

/-- What an instruction or a step answers. -/
abbrev Result := Host.Outcome State Fault Refusal

/-- All flags clear (R25). -/
def Flags.none : Flags := ⟨false, false, false, false⟩

/-- The reset values of a parameter bank: the reset column of R27, `DB[2] = HL[0] = 0x8000`, Drawbar mode (R42, R43, R44). -/
def Bank.reset : Bank where
  p := #v[0, 0, 0x8000, 0, 0x10000, 0x400, 0x1000, 0x8000, 0x1000, 0x10000, 0x10000, 0x10000, 0x10000]
  db := #v[0, 0, 0x8000, 0, 0, 0, 0, 0, 0]
  hl := #v[0x8000, 0, 0, 0, 0, 0, 0, 0, 0, 0, 0, 0, 0, 0, 0, 0]
  mode := .drawbar

/-- A voice slot all zeros, that is Idle (R49, R60). -/
def Voice.reset : Voice where
  stage := .idle
  note := 0
  vel := 0
  freq := 0
  phase := #v[0, 0, 0, 0, 0, 0, 0, 0, 0, 0, 0, 0, 0, 0, 0, 0]
  level := 0
  relStep := 0
  sustained := false
  serial := 0

/-- The voice pool after reset: `nv` Idle slots, pedal up (R47, R48, R60). -/
def Pool.reset (nv : Nat) : Pool where
  voices := List.replicate nv Voice.reset
  pedal := false
  noteSerial := 0

/-- The block-rate registers after reset: 0 but for `vib` and `g` (R55). -/
def BlockRate.reset (nv : Nat) : BlockRate where
  vib := 0x10000
  g := 0x10000
  incHalf := List.replicate nv 0
  attN := 0
  decN := 0
  attStep := 0
  decStep := 0
  susLvl := 0
  rotorInc := 0

/-- The sequencer after reset (R56). -/
def Sequencer.reset : Sequencer := ⟨0, 0, 0, 0, false⟩

/-- The device of configuration `c` right after hardware reset (R60, R300), nothing offered at a port, nothing yet
responded or written. -/
def State.atReset (c : Params) : State where
  cfg := c
  inited := false
  rendering := false
  sr := 0
  initStat := 0
  flags := Flags.none
  shadow := Bank.reset
  active := Bank.reset
  evq := []
  pool := Pool.reset c.nv
  leslieCur := 0x10000
  rotorPhase := 0
  vibPhase := 0
  vibInc := 0
  br := BlockRate.reset c.nv
  seq := Sequencer.reset
  resp := []
  out := []
  renderNo := 0
  cIn := []
  rIn := []
  sched := []
  tick := 0

/-- The machine right after hardware reset, in the default configuration of R7 (R60, R300). -/
def State.reset : State := State.atReset defaultParams

end Sys2Proof.Machine
end

