-- ==== Sys2Proof/Machine/Flags.lean ====
section
/-! DEFINITION. The sticky flags, the one fault mechanism of the device (R275), and the STATUS view (R26). -/

namespace Sys2Proof.Machine

/-- Set the flag of a condition; it stays 1 if it was (R275). -/
def Flags.set (f : Flags) : Cond → Flags
  | .badCmd => { f with badCmd := true }
  | .badIdx => { f with badIdx := true }
  | .evqOvf => { f with evqOvf := true }
  | .notInit => { f with notInit := true }

/-- The flag of a condition. -/
def Flags.get (f : Flags) : Cond → Bool
  | .badCmd => f.badCmd
  | .badIdx => f.badIdx
  | .evqOvf => f.evqOvf
  | .notInit => f.notInit

/-- `raise <Cond>` (R14, R275): set the sticky flag, change nothing else, end the command. -/
def raise (c : Cond) (s : State) : State := { s with flags := s.flags.set c }

/-- A bit of STATUS at its place (R26). -/
def statusBit (b : Bool) (place : Nat) : Word := (BitVec.ofBool b).setWidth 32 <<< place

/-- STATUS (R26): INITED in bit 0, RENDERING in bit 1, the flags in bits 4 to 7, INITSTAT in bits 15:8, all other bits 0. -/
def statusWord (s : State) : Word :=
  statusBit s.inited 0 ||| statusBit s.rendering 1 ||| statusBit s.flags.badCmd 4 ||| statusBit s.flags.badIdx 5
    ||| statusBit s.flags.evqOvf 6 ||| statusBit s.flags.notInit 7 ||| (s.initStat.setWidth 32 <<< 8)

end Sys2Proof.Machine
end

