-- ==== Sys2Proof/Machine/Memory.lean ====
section
/-! DEFINITION. The output space (R77): addresses, the canonical form, reading and writing one sample. -/

namespace Sys2Proof.Machine

/-- The address of element OUT[c][s] of the RENDER with number `r`: the order of writing (increasing s, then increasing c, R91) is
the order of addresses. Channel counts are below 256 and sample indices below 2^32 (R105), so no two elements share one. -/
def outAddr (r s c : Nat) : Nat := (r * 2 ^ 32 + s) * 256 + c

/-- The canonical form: addresses strictly rising. (An unlisted address reads as no value, so no entry can equal it.) -/
abbrev Memory.wf (m : Memory) : Prop := (m.map Prod.fst).Pairwise (· < ·)

/-- The sample written at an address; none if nothing has written it: its contents are the host's (R77, I17). -/
def Memory.read : Memory → Nat → Option Sample
  | [], _ => none
  | (b, w) :: m, a => if a = b then some w else Memory.read m a

/-- `MemWrite(OUT, (c, s), 16, v)` (R13), keeping the canonical form. -/
def Memory.write : Memory → Nat → Sample → Memory
  | [], a, v => [(a, v)]
  | (b, w) :: m, a, v =>
    if a < b then (a, v) :: (b, w) :: m
    else if a = b then (a, v) :: m
    else (b, w) :: Memory.write m a v

/-- Write one sample to every channel below `ch` at sample index `s` of RENDER `r`, in increasing channel order (R91, R225). -/
def Memory.writeChannels (m : Memory) (r s ch : Nat) (v : Sample) : Memory :=
  (List.range ch).foldl (fun m c => m.write (outAddr r s c) v) m

end Sys2Proof.Machine
end

