-- ==== Sys2Proof/Machine/Arith.lean ====
section
/-! DEFINITION. The arithmetic primitives of R10 on unbounded integers, the fixed-point constants of R11, and the narrowing to a
stored width. -/

namespace Sys2Proof.Machine

/-- `asr(v, n) = floor(v / 2^n)`, rounding toward minus infinity (R10). -/
def asr (v : Int) (n : Nat) : Int := v / 2 ^ n

/-- `fdiv(a, b) = floor(a / b)` (R10). Every rule that uses it guards the divisor; on `b = 0` Lean answers 0 (log entry 13). -/
def fdiv (a b : Nat) : Nat := a / b

/-- `cdiv(a, b) = ceil(a / b)` (R10). -/
def cdiv (a b : Nat) : Nat := (a + b - 1) / b

/-- `clamp(v, lo, hi) = max(lo, min(v, hi))` on non-negative values (R10). -/
def clamp (v lo hi : Nat) : Nat := max lo (min v hi)

/-- `sat_u32(v) = clamp(v, 0, 2^32 - 1)` (R10), as the stored word. -/
def satU32 (v : Int) : Word := BitVec.ofNat 32 (min v.toNat (2 ^ 32 - 1))

/-- `sat_i16(v) = clamp(v, -32768, 32767)` (R10), as the stored sample. -/
def satI16 (v : Int) : Sample := BitVec.ofInt 16 (max (-32768) (min v 32767))

/-- `ONE16`, 1.0 in UQ16.16 (R11). -/
def one16 : Nat := 0x10000

/-- `ONE15`, 1.0 in UQ1.15 (R11). -/
def one15 : Nat := 0x8000

/-- `ENV_ONE`, 1.0 in UQ2.30 (R11). -/
def envOne : Nat := 0x40000000

/-- `lim15(raw) = min(raw, ONE15)` (R11). -/
def lim15 (raw : Word) : Nat := min raw.toNat one15

/-- `CHUNK`, the number of samples of a full chunk (R6). -/
def chunkSize : Nat := 16

end Sys2Proof.Machine
end

