-- ==== Sys2Proof/Machine/Operands.lean ====
section
/-! DEFINITION. The register numbers of R27 and access to the REG space by number (R76): every operand form of the device. -/

namespace Sys2Proof.Machine

/-- PITCHOFS (R28). -/
def regPitchOfs : Fin 13 := 0x00
/-- VIBDEPTH (R29). -/
def regVibDepth : Fin 13 := 0x01
/-- MASTERVOL (R30). -/
def regMasterVol : Fin 13 := 0x02
/-- VELSENS (R31). -/
def regVelSens : Fin 13 := 0x03
/-- TUNING (R32). -/
def regTuning : Fin 13 := 0x04
/-- ATTACK (R33). -/
def regAttack : Fin 13 := 0x05
/-- DECAY (R34). -/
def regDecay : Fin 13 := 0x06
/-- SUSTAIN (R35). -/
def regSustain : Fin 13 := 0x07
/-- RELEASE (R36). -/
def regRelease : Fin 13 := 0x08
/-- DPOWER (R37). -/
def regDPower : Fin 13 := 0x09
/-- DDRIVE (R38). -/
def regDDrive : Fin 13 := 0x0A
/-- DGAIN (R39). -/
def regDGain : Fin 13 := 0x0B
/-- LESLIE (R40). -/
def regLeslie : Fin 13 := 0x0C

/-- The number of SRATE, the read-only view of the sample rate (R41). -/
def srateNumber : BitVec 8 := 0x0F

/-- Register `r` of a bank as a number: `P[r]` or `AP[r]` (R12). -/
def Bank.reg (b : Bank) (r : Fin 13) : Nat := (b.p[r]).toNat

/-- Read of bank 0 of REG: a parameter register by its number; none if the number is unassigned (R76). -/
def Bank.readParam (b : Bank) (reg : BitVec 8) : Option Word := b.p[reg.toNat]?

/-- Write of bank 0 of REG; none if the number is unassigned (R76). -/
def Bank.writeParam (b : Bank) (reg : BitVec 8) (value : Word) : Option Bank :=
  if h : reg.toNat < 13 then some { b with p := b.p.set reg.toNat value h } else none

/-- Read of bank 1 of REG: a drawbar (R76). -/
def Bank.readDrawbar (b : Bank) (index : BitVec 8) : Option Word := b.db[index.toNat]?

/-- Write of bank 1 of REG: a drawbar; the mode becomes Drawbar (R44, R76). -/
def Bank.writeDrawbar (b : Bank) (index : BitVec 8) (value : Word) : Option Bank :=
  if h : index.toNat < 9 then some { b with db := b.db.set index.toNat value h, mode := .drawbar } else none

/-- Read of bank 2 of REG: a harmonic level (R76). -/
def Bank.readHarmonic (b : Bank) (index : BitVec 8) : Option Word := b.hl[index.toNat]?

/-- Write of bank 2 of REG: a harmonic level; the mode becomes Harmonic (R44, R76). -/
def Bank.writeHarmonic (b : Bank) (index : BitVec 8) (value : Word) : Option Bank :=
  if h : index.toNat < 16 then some { b with hl := b.hl.set index.toNat value h, mode := .harmonic } else none

end Sys2Proof.Machine
end

