-- ==== Sys2Proof/Machine/Ops.lean ====
section
/-! DEFINITION. The named operations the meanings share: the response stream, the event queue, the checks every command begins with,
access to a register by number, and what hardware reset and INIT restore. The device's one way of taking an exception is `raise`
(Flags.lean); R282 and R283 say that nothing is saved and that there is no return from it. -/

namespace Sys2Proof.Machine

/-- `Respond(v)`: append one word to the response stream (R13, R78). -/
def respond (v : Word) (s : State) : State := { s with resp := s.resp ++ [v] }

/-- `EvqPush(e)` (R79): append at the tail, or leave the queue unchanged and raise EVQOVF. -/
def evqPush (e : Event) (s : State) : State :=
  if s.evq.length < s.cfg.evqDepth then { s with evq := s.evq ++ [e] } else raise .evqOvf s

/-- The lifecycle check of a command that does not respond: NOTINIT and discarded while not initialised (R279). -/
def whenInited (s : State) (done : State) : State := if s.inited then done else raise .notInit s

/-- The lifecycle check of a responder: while not initialised it answers 0 and raises NOTINIT (R279). -/
def whenInitedResp (s : State) (done : State) : State :=
  if s.inited then done else raise .notInit (respond 0 s)

/-- Store a written shadow bank, or raise BADIDX where the address is unassigned (R76). -/
def storeShadow (b : Option Bank) (s : State) : State :=
  match b with
  | some b => { s with shadow := b }
  | none => raise .badIdx s

/-- Answer a register, or 0 with BADIDX where the address is unassigned (R76). -/
def answer (v : Option Word) (s : State) : State :=
  match v with
  | some v => respond v s
  | none => raise .badIdx (respond 0 s)

/-- Every item of R60 at its reset value. What the device does not hold stays: the response stream, the output space, the words
waiting at the ports and the schedule belong to the host (R60, R301); the configuration never changes (R7). -/
def restore (s : State) : State :=
  { State.atReset s.cfg with
    resp := s.resp, out := s.out, renderNo := s.renderNo, cIn := s.cIn, rIn := s.rIn, sched := s.sched, tick := s.tick }

/-- Hardware reset (R300, R301) as one step: the only thing that clears the sticky flags (DEDUCED, log entry 10). -/
def hardReset (s : State) : State := restore s

/-- The vibrato phase increment INIT computes, `fdiv(VIB_RATE * 65536, sr)` (R54); where that does not fit the 32 bits of the
register, a free value (log entry 8). -/
def vibIncOf (c : Params) (sr : Word) : Word :=
  let q := fdiv (c.vibRate.toNat * 65536) sr.toNat
  if q < 2 ^ 32 then BitVec.ofNat 32 q else Config.wideVibInc q

/-- What a successful INIT leaves (R260, R61): the reset values, with the flags kept, `SR`, `vibInc` and `inited` set. -/
def initEngine (sr : Word) (s : State) : State :=
  { restore s with flags := s.flags, sr := sr, vibInc := vibIncOf s.cfg sr, inited := true }

/-- The status INIT answers, first match wins (R260). -/
def initStatus (sr : Word) (s : State) : BitVec 8 :=
  if s.inited then 2
  else if s.rendering then 3
  else if sr.toNat < s.cfg.srMin ∨ s.cfg.srMax < sr.toNat then 1
  else 0

end Sys2Proof.Machine
end

