-- ==== Sys2Proof/Machine/Lifecycle.lean ====
section
/-! DEFINITION. INIT, DEINIT, RDSTAT (47_lifecycle.md). -/

namespace Sys2Proof.Machine

/-- INIT sr (R260): the engine is reset on status 0; the status is recorded and answered whatever it is. -/
def execInit (sr : Word) (s : State) : Result :=
  let st := initStatus sr s
  let s' := if st = 0 then initEngine sr s else s
  .next (respond (st.setWidth 32) { s' with initStat := st })

/-- DEINIT (R262): clears `inited` and nothing else. -/
def execDeinit (s : State) : Result :=
  .next (whenInited s { s with inited := false })

/-- RDSTAT (R264): answers STATUS in either lifecycle state, changes nothing. -/
def execRdstat (s : State) : Result :=
  .next (respond (statusWord s) s)

end Sys2Proof.Machine
end

