-- ==== Sys2Proof/Machine/Note.lean ====
section
/-! DEFINITION. PLAY, STOP, PEDAL at the C-port (40_note_control.md section 1): each queues an event. -/

namespace Sys2Proof.Machine

/-- The event a PLAY queues (R130). -/
def playEvent (note vel : BitVec 7) (freq : Word) : Event := ⟨.play, note, vel, freq⟩

/-- The event a STOP queues (R131). -/
def stopEvent (note : BitVec 7) (imm : Bool) : Event := ⟨.stop, note, (BitVec.ofBool imm).setWidth 7, 0⟩

/-- The event a PEDAL queues (R132). -/
def pedalEvent (down : Bool) : Event := ⟨.pedal, 0, (BitVec.ofBool down).setWidth 7, 0⟩

/-- PLAY note, vel, freq (R130). -/
def execPlay (note vel : BitVec 7) (freq : Word) (s : State) : Result :=
  .next (whenInited s (evqPush (playEvent note vel freq) s))

/-- STOP note, imm (R131). -/
def execStop (note : BitVec 7) (imm : Bool) (s : State) : Result :=
  .next (whenInited s (evqPush (stopEvent note imm) s))

/-- PEDAL down (R132). -/
def execPedal (down : Bool) (s : State) : Result :=
  .next (whenInited s (evqPush (pedalEvent down) s))

end Sys2Proof.Machine
end

