-- ==== Sys2Proof/Machine/Param.lean ====
section
/-! DEFINITION. WRP, RDP, SETDB, GETDB, SETHL, GETHL (46_parameters.md): access to the shadow bank. -/

namespace Sys2Proof.Machine

/-- WRP reg, value (R240). -/
def execWrp (reg : BitVec 8) (value : Word) (s : State) : Result :=
  .next (whenInited s (storeShadow (s.shadow.writeParam reg value) s))

/-- RDP reg (R241): SRATE answers the sample rate, the other numbers the shadow register. -/
def execRdp (reg : BitVec 8) (s : State) : Result :=
  .next (whenInitedResp s (answer (if reg = srateNumber then some s.sr else s.shadow.readParam reg) s))

/-- SETDB index, value (R242). -/
def execSetdb (index : BitVec 8) (value : Word) (s : State) : Result :=
  .next (whenInited s (storeShadow (s.shadow.writeDrawbar index value) s))

/-- GETDB index (R243). -/
def execGetdb (index : BitVec 8) (s : State) : Result :=
  .next (whenInitedResp s (answer (s.shadow.readDrawbar index) s))

/-- SETHL index, value (R244). -/
def execSethl (index : BitVec 8) (value : Word) (s : State) : Result :=
  .next (whenInited s (storeShadow (s.shadow.writeHarmonic index value) s))

/-- GETHL index (R245). -/
def execGethl (index : BitVec 8) (s : State) : Result :=
  .next (whenInitedResp s (answer (s.shadow.readHarmonic index) s))

end Sys2Proof.Machine
end

