-- ==== Sys2Proof/Machine/Distortion.lean ====
section
/-! DEFINITION. The distortion waveshaper (43_distortion.md). -/

namespace Sys2Proof.Machine

/-- `Drive(mix)` (R191). -/
def drive (b : Bank) (mix : Int) : Int := asr (mix * b.reg regDDrive) 16

/-- One product of the power loop: `(pw * u) >> 15` (R192). -/
def powStep (u pw : Nat) : Nat := pw * u / 2 ^ 15

/-- `u^n` truncated at each product, for `n >= 1`: `n - 1` products from `u` (R192). -/
def powLoop (u : Nat) : Nat → Nat
  | 0 => u
  | k + 1 => powStep u (powLoop u k)

/-- The effective power, `clamp(AP[DPOWER], ONE16, POWER_MAX)` (R37, R192). -/
def effectivePower (c : Params) (b : Bank) : Nat := clamp (b.reg regDPower) one16 c.powerMax.toNat

/-- The curve on a magnitude `a` in 0..32768 for the power `pEff` (R192). -/
def shapeMagnitude (pEff a : Nat) : Nat :=
  let n := pEff / 2 ^ 16
  let fr := pEff % 2 ^ 16
  let u := 32768 - a
  let pw := powLoop u (n - 1)
  let pw1 := powStep u pw
  let y0 := 32768 - pw
  let y1 := 32768 - pw1
  y0 + (y1 - y0) * fr / 2 ^ 16

/-- `Shape(d)` (R192). -/
def shape (c : Params) (b : Bank) (d : Int) : Int :=
  let y := shapeMagnitude (effectivePower c b) (min d.natAbs 32768)
  if d < 0 then -(y : Int) else y

/-- `Gain(w)` (R193), on unbounded integers (DEDUCED, log entry 17). -/
def gain (b : Bank) (w : Int) : Int := asr (w * b.reg regDGain) 16

/-- `Distort(mix) = Gain(Shape(Drive(mix)))` (R190). -/
def distort (c : Params) (b : Bank) (mix : Int) : Int := gain b (shape c b (drive b mix))

end Sys2Proof.Machine
end

