-- ==== Sys2Proof/Machine/Oscillator.lean ====
section
/-! DEFINITION. The sine table lookup, the frequency chain and the phase-accumulator oscillator bank (41_oscillator.md). -/

namespace Sys2Proof.Machine

/-- `SINE[p >> 24]`: the top 8 bits of a phase index the table (R157). -/
def sineAt (c : Params) (phase : Word) : Int := c.sine.getD (phase.toNat / 2 ^ 24) 0

/-- The vibrato factor of a PREP (R152). -/
def vibratoFactor (c : Params) (b : Bank) (vibPhase : Word) : Word :=
  satU32 (one16 + asr (b.reg regVibDepth * sineAt c vibPhase) 15)

/-- `pof = max(0, ONE16 + sext_32(AP[PITCHOFS]))` (R28, R151). -/
def pitchOffsetFactor (b : Bank) : Int := max 0 (one16 + (b.p[regPitchOfs]).toInt)

/-- The global frequency factor (R151). -/
def globalFactor (b : Bank) (vib : Word) : Word :=
  let g1 := satU32 (asr (b.reg regTuning * pitchOffsetFactor b) 16)
  satU32 (asr (g1.toNat * vib.toNat) 16)

/-- The phase increment per sample of half the fundamental of a voice at `freq` (R153). -/
def baseIncrement (sr freq g : Word) : BitVec 48 :=
  let feff := satU32 (asr (freq.toNat * g.toNat) 16)
  BitVec.ofNat 48 (fdiv (feff.toNat * 32768) sr.toNat)

/-- `NP`, the number of partials of a timbre mode (R154). -/
def partialCount : TimbreMode → Nat
  | .drawbar => 9
  | .harmonic => 16

/-- `lvl[j]`, the level of partial `j` (R154). -/
def partialLevel (b : Bank) (j : Nat) : Nat :=
  match b.mode with
  | .drawbar => lim15 (b.db[j]?.getD 0)
  | .harmonic => lim15 (b.hl[j]?.getD 0)

/-- `mult2[j]`, the frequency of partial `j` in halves of the fundamental (R154). -/
def partialMult2 (c : Params) (mode : TimbreMode) (j : Nat) : Nat :=
  match mode with
  | .drawbar => c.drawbarMult2.getD j 0
  | .harmonic => 2 * (j + 1)

/-- The phase increment of partial `j` (R154, R155). -/
def partialInc (c : Params) (mode : TimbreMode) (inc : BitVec 48) (j : Nat) : Nat := partialMult2 c mode j * inc.toNat

/-- What partial `j` adds to the sum of `OscStep`: nothing at or above half the sample rate (R155, R159). -/
def partialTerm (c : Params) (b : Bank) (inc : BitVec 48) (v : Voice) (j : Nat) : Int :=
  if partialInc c b.mode inc j < 2 ^ 31 then partialLevel b j * sineAt c (v.phase[j]?.getD 0) else 0

/-- The output of `OscStep(v)` (R155). -/
def oscOut (c : Params) (b : Bank) (inc : BitVec 48) (v : Voice) : Int :=
  asr ((List.range (partialCount b.mode)).map (partialTerm c b inc v)).sum 15

/-- The accumulators after `OscStep(v)`: those of the active mode advance, audible or not, the others hold (R51, R155). -/
def oscAdvance (c : Params) (mode : TimbreMode) (inc : BitVec 48) (v : Voice) : Vector Word 16 :=
  Vector.ofFn fun j : Fin 16 =>
    if j.val < partialCount mode then BitVec.ofNat 32 (v.phase[j].toNat + partialInc c mode inc j) else v.phase[j]

end Sys2Proof.Machine
end

