-- ==== Sys2Proof/Machine/Leslie.lean ====
section
/-! DEFINITION. The Leslie rotor (44_leslie.md). -/

namespace Sys2Proof.Machine

/-- The target speed, `clamp(AP[LESLIE] >> 16, 1, 8) << 16` (R201). -/
def leslieTarget (b : Bank) : Nat := clamp (b.reg regLeslie / 2 ^ 16) 1 8 * 2 ^ 16

/-- The largest change of the rotor speed at a PREP of `len` samples (R202). -/
def leslieStep (c : Params) (sr : Word) (len : Nat) : Nat := max 1 (fdiv (c.leslieAccel.toNat * len) sr.toNat)

/-- The rotor speed after a PREP: it moves toward the target by at most `step` and never passes it (R202). -/
def leslieRamp (cur tgt step : Nat) : Nat :=
  if cur < tgt then min tgt (cur + step)
  else if tgt < cur then max tgt (cur - step)
  else cur

/-- The rotor phase increment per sample, modulo 2^32 (R203). -/
def rotorIncrement (c : Params) (sr cur : Word) : Word := BitVec.ofNat 32 (fdiv (cur.toNat * c.leslieK.toNat) sr.toNat)

/-- `LeslieGain()`: `lg = 32768 - ((LESLIE_DEPTH * (32768 - s)) >> 16)` (R204). -/
def leslieGain (c : Params) (rotorPhase : Word) : Int :=
  32768 - asr (c.leslieDepth.toNat * (32768 - sineAt c rotorPhase)) 16

/-- The modulated signal, `asr(g * lg, 15)` (R204, R224). -/
def leslieApply (c : Params) (rotorPhase : Word) (g : Int) : Int := asr (g * leslieGain c rotorPhase) 15

end Sys2Proof.Machine
end

