-- ==== Sys2Proof/Machine/Envelope.lean ====
section
/-! DEFINITION. The ADSR envelope generator (42_envelope.md). -/

namespace Sys2Proof.Machine

/-- A duration register in samples, rounded down: `fdiv(reg * SR, 65536)` (R33, R34, R36). -/
def durationSamples (reg : Nat) (sr : Word) : Nat := fdiv (reg * sr.toNat) 65536

/-- The sustain level in UQ2.30, `lim15(AP[SUSTAIN]) << 15` (R171). -/
def sustainLevel (b : Bank) : Nat := lim15 b.p[regSustain] * 2 ^ 15

/-- The per-sample attack step for an attack of `n` samples (R171). -/
def attackStep (n : Nat) : Nat := if n = 0 then envOne else cdiv envOne n

/-- The per-sample decay step for a decay of `n` samples to the level `sus` (R171). -/
def decayStep (n sus : Nat) : Nat := if n = 0 then envOne - sus else cdiv (envOne - sus) n

/-- The envelope constants of a PREP (R171). -/
def envelopeConstants (b : Bank) (sr : Word) (r : BlockRate) : BlockRate :=
  let sus := sustainLevel b
  let attN := durationSamples (b.reg regAttack) sr
  let decN := durationSamples (b.reg regDecay) sr
  { r with
    susLvl := BitVec.ofNat 31 sus
    attN := BitVec.ofNat 48 attN
    decN := BitVec.ofNat 48 decN
    attStep := BitVec.ofNat 31 (attackStep attN)
    decStep := BitVec.ofNat 31 (decayStep decN sus) }

/-- First test of R172: the end of the attack. -/
def endAttack (r : BlockRate) (v : Voice) : Voice :=
  if v.stage = .attack ∧ (r.attN = 0 ∨ envOne ≤ v.level.toNat) then
    { v with level := BitVec.ofNat 31 envOne, stage := .decay } else v

/-- Second test of R172: the end of the decay. -/
def endDecay (r : BlockRate) (v : Voice) : Voice :=
  if v.stage = .decay ∧ (r.decN = 0 ∨ v.level.toNat ≤ r.susLvl.toNat) then
    { v with level := r.susLvl, stage := .sustain } else v

/-- Third test of R172: a voice in Sustain holds the sustain level. -/
def holdSustain (r : BlockRate) (v : Voice) : Voice :=
  if v.stage = .sustain then { v with level := r.susLvl } else v

/-- Fourth test of R172: the end of the release. -/
def endRelease (v : Voice) : Voice :=
  if v.stage = .release ∧ v.level = 0 then { v with stage := .idle, sustained := false, relStep := 0 } else v

/-- The stage transitions of one slot at PREP, each test seeing the result of the one before (R172). -/
def stageTransition (r : BlockRate) (v : Voice) : Voice :=
  endRelease (holdSustain r (endDecay r (endAttack r v)))

/-- `EnvStep(v)`: the level update of a non-idle voice, once per sample (R174). -/
def envStep (r : BlockRate) (v : Voice) : Voice :=
  match v.stage with
  | .idle => v
  | .attack => { v with level := BitVec.ofNat 31 (min envOne (v.level.toNat + r.attStep.toNat)) }
  | .decay => { v with level := BitVec.ofNat 31 (max r.susLvl.toNat (v.level.toNat - r.decStep.toNat)) }
  | .sustain => v
  | .release => { v with level := BitVec.ofNat 31 (v.level.toNat - v.relStep.toNat) }

/-- `EnvOut(v) = level >> 15`: the level as a UQ1.15 gain (R175). -/
def envOut (v : Voice) : Nat := v.level.toNat / 2 ^ 15

/-- `EnterRelease(v)` (R176): the release step is fixed from the current level; a release of 0 samples cuts the level to 0. -/
def enterRelease (b : Bank) (sr : Word) (v : Voice) : Voice :=
  let relN := durationSamples (b.reg regRelease) sr
  if relN = 0 then { v with level := 0, relStep := 0, stage := .release, sustained := false }
  else { v with relStep := BitVec.ofNat 31 (cdiv v.level.toNat relN), stage := .release, sustained := false }

end Sys2Proof.Machine
end

