-- ==== Sys2Proof/Machine/VoicePool.lean ====
section
/-! DEFINITION. Applying the queued events to the voice pool (40_note_control.md section 2). -/

namespace Sys2Proof.Machine

/-- A slot that is not free: its stage is not Idle (R50). -/
def Voice.sounding (v : Voice) : Bool := v.stage != .idle

/-- Does the slot sound this note? -/
def Voice.playing (note : BitVec 7) (v : Voice) : Bool := v.sounding && v.note == note

/-- `age(v) = (noteSerial - V[v].serial) mod 2^32` (R135). -/
def Voice.age (now : Word) (v : Voice) : Nat := (now - v.serial).toNat

/-- The oldest of the slots that satisfy `p`, as (index, age): the largest age, among equal ages the lowest index (R135). -/
def oldest (now : Word) (p : Voice → Bool) : List Voice → Option (Nat × Nat)
  | [] => none
  | v :: vs =>
    let later := (oldest now p vs).map fun x => (x.1 + 1, x.2)
    if p v then
      match later with
      | some (i, a) => if v.age now < a then some (i, a) else some (0, v.age now)
      | none => some (0, v.age now)
    else later

/-- The slot a PLAY takes, the first that exists in the order of R134: the slot that sounds the note, the lowest free slot, the
oldest releasing slot, the oldest slot of all. It is none only if there is no slot at all, which R7 excludes. -/
def chooseSlot (now : Word) (note : BitVec 7) (vs : List Voice) : Option Nat :=
  match vs.findIdx? (Voice.playing note) with
  | some i => some i
  | none =>
    match vs.findIdx? (fun v => v.stage == .idle) with
    | some i => some i
    | none =>
      match oldest now (fun v => v.stage == .release) vs with
      | some x => some x.1
      | none => (oldest now (fun _ => true) vs).map Prod.fst

/-- The slot a PLAY starts, whatever it held before (R136). -/
def startedVoice (note vel : BitVec 7) (freq serial : Word) : Voice :=
  { Voice.reset with stage := .attack, note := note, vel := vel, freq := freq, serial := serial }

/-- Applying PLAY (R134, R136). -/
def applyPlay (note vel : BitVec 7) (freq : Word) (pl : Pool) : Pool :=
  match chooseSlot pl.noteSerial note pl.voices with
  | some i =>
    { pl with voices := pl.voices.set i (startedVoice note vel freq pl.noteSerial), noteSerial := pl.noteSerial + 1 }
  | none => pl

/-- The hard cut of `STOP n, 1` (R137, R138). -/
def cutVoice (v : Voice) : Voice := { v with stage := .idle, level := 0, relStep := 0, sustained := false }

/-- What a STOP does to the voice that sounds its note (R137). -/
def stopVoice (b : Bank) (sr : Word) (pedal imm : Bool) (v : Voice) : Voice :=
  if imm then cutVoice v
  else if v.stage = .release then v
  else if pedal then { v with sustained := true }
  else enterRelease b sr v

/-- Applying STOP (R137): nothing happens if no voice sounds the note. -/
def applyStop (b : Bank) (sr : Word) (note : BitVec 7) (imm : Bool) (pl : Pool) : Pool :=
  match pl.voices.findIdx? (Voice.playing note) with
  | some i => { pl with voices := pl.voices.modify i (stopVoice b sr pl.pedal imm) }
  | none => pl

/-- What the pedal going up does to a slot: a held voice enters Release (R139). -/
def releaseHeld (b : Bank) (sr : Word) (v : Voice) : Voice := if v.sustained then enterRelease b sr v else v

/-- Applying PEDAL (R139). -/
def applyPedal (b : Bank) (sr : Word) (down : Bool) (pl : Pool) : Pool :=
  if pl.pedal = true ∧ down = false then
    { pl with voices := pl.voices.map (releaseHeld b sr), pedal := down }
  else { pl with pedal := down }

/-- Apply one event (R133), with the parameters of the active bank `b`. -/
def applyEvent (b : Bank) (sr : Word) (pl : Pool) (e : Event) : Pool :=
  match e.kind with
  | .play => applyPlay e.note e.arg e.freq pl
  | .stop => applyStop b sr e.note (e.arg.getLsbD 0) pl
  | .pedal => applyPedal b sr (e.arg.getLsbD 0) pl

/-- Apply events one by one, head first (R133, R219). -/
def applyEvents (b : Bank) (sr : Word) (es : List Event) (pl : Pool) : Pool := es.foldl (applyEvent b sr) pl

end Sys2Proof.Machine
end

