-- ==== Sys2Proof/Machine/Render.lean ====
section
/-! DEFINITION. RENDER and the render sequencer (45_render.md): the acceptance of a RENDER, PREP, SAMPLE, and the engine's step. -/

namespace Sys2Proof.Machine

/-- RENDER ch, n (R215): the acceptance. The engine's steps follow (R216). A RENDER of at least one sample opens a new output
space, so it takes the next RENDER number (DESIGN CHOICE, log entry 5). On `n = 0` the pseudocode is followed (DEDUCED, log
entry 7). -/
def execRender (ch : BitVec 8) (n : Word) (s : State) : Result :=
  .next { s with
    seq := ⟨ch, n, 0, 0, false⟩
    rendering := n != 0
    renderNo := if n = 0 then s.renderNo else s.renderNo + 1 }

/-- PREP step 1: the atomic snapshot of the shadow bank (R218). -/
def prepSnapshot (s : State) : State := { s with active := s.shadow }

/-- PREP step 2: drain the event queue and apply every event, head first (R79, R219). -/
def prepEvents (s : State) : State := { s with evq := [], pool := applyEvents s.active s.sr s.evq s.pool }

/-- PREP step 3: the envelope constants (R171), then the stage transitions of every slot (R172). -/
def prepEnvelope (s : State) : State :=
  let br := envelopeConstants s.active s.sr s.br
  { s with br := br, pool := { s.pool with voices := s.pool.voices.map (stageTransition br) } }

/-- PREP step 4: the speed ramp for a chunk of `len` samples (R201, R202), then the rotor increment (R203). -/
def prepLeslie (len : Nat) (s : State) : State :=
  let cur := BitVec.ofNat 32 (leslieRamp s.leslieCur.toNat (leslieTarget s.active) (leslieStep s.cfg s.sr len))
  { s with leslieCur := cur, br := { s.br with rotorInc := rotorIncrement s.cfg s.sr cur } }

/-- PREP step 5: the vibrato factor, then the vibrato phase advances by the chunk's length (R152). -/
def prepVibrato (len : Nat) (s : State) : State :=
  { s with
    br := { s.br with vib := vibratoFactor s.cfg s.active s.vibPhase }
    vibPhase := BitVec.ofNat 32 (s.vibPhase.toNat + len * s.vibInc.toNat) }

/-- PREP step 6: the global frequency factor (R151), then the base increment of every slot (R153). -/
def prepPitch (s : State) : State :=
  let g := globalFactor s.active s.br.vib
  { s with br := { s.br with g := g, incHalf := s.pool.voices.map fun v => baseIncrement s.sr v.freq g } }

/-- `PREP(L)` for a chunk of `len` samples: the six parts in the order of R217. -/
def prep (len : Nat) (s : State) : State :=
  prepPitch (prepVibrato len (prepLeslie len (prepEnvelope (prepEvents (prepSnapshot s)))))

/-- The chunk start (R216): PREP if the device is initialised, else the start of a silent chunk, which sets NOTINIT. -/
def chunkStart (s : State) : State :=
  let len := min chunkSize s.seq.rem.toNat
  let s' := { s with seq := { s.seq with left := len, live := s.inited } }
  if s.inited then prep len s' else raise .notInit s'

/-- `Amp(v)`, the velocity-sensitivity-scaled amplitude (R222). -/
def amplitude (b : Bank) (v : Voice) : Nat :=
  let vs := lim15 b.p[regVelSens]
  (32768 - vs) + fdiv (vs * v.vel.toNat) 127

/-- The contribution of `VoiceOut(v)` to the mix (R221); an Idle slot contributes nothing (R220). -/
def voiceOut (c : Params) (b : Bank) (inc : BitVec 48) (v : Voice) : Int :=
  if v.stage = .idle then 0 else asr (asr (oscOut c b inc v * envOut v) 15 * amplitude b v) 15

/-- The slot after `VoiceOut(v)`: phases advanced (R155), then the level moved (R174); an Idle slot is untouched (R220). -/
def voiceNext (c : Params) (mode : TimbreMode) (r : BlockRate) (inc : BitVec 48) (v : Voice) : Voice :=
  if v.stage = .idle then v else envStep r { v with phase := oscAdvance c mode inc v }

/-- `BR.incHalf[v]` (R55). -/
def BlockRate.incOf (r : BlockRate) (v : Nat) : BitVec 48 := r.incHalf.getD v 0

/-- The sum of all voices (R220, R223). -/
def mixVoices (s : State) : Int :=
  (s.pool.voices.zipIdx.map fun x => voiceOut s.cfg s.active (s.br.incOf x.2) x.1).sum

/-- `Master(l)`: master volume and output saturation (R226). -/
def master (b : Bank) (l : Int) : Sample := satI16 (asr (l * lim15 b.p[regMasterVol]) 15)

/-- The sample `SAMPLE()` returns (R220). -/
def sampleOut (s : State) : Sample :=
  master s.active (leslieApply s.cfg s.rotorPhase (distort s.cfg s.active (mixVoices s)))

/-- The engine state after `SAMPLE()`: the non-idle slots and the rotor phase move, nothing else (R205, R220). -/
def sampleNext (s : State) : State :=
  { s with
    pool := { s.pool with
      voices := s.pool.voices.zipIdx.map fun x => voiceNext s.cfg s.active.mode s.br (s.br.incOf x.2) x.1 }
    rotorPhase := s.rotorPhase + s.br.rotorInc }

/-- The sample step (R216): a SAMPLE of a live chunk or a silent sample, written to every channel (R225). -/
def sampleStep (s : State) : State :=
  let o : Sample := if s.seq.live then sampleOut s else 0
  let s' := if s.seq.live then sampleNext s else s
  let rem := s.seq.rem - 1
  { s' with
    out := s.out.writeChannels s.renderNo s.seq.sIdx.toNat s.seq.chN.toNat o
    seq := { s.seq with sIdx := s.seq.sIdx + 1, rem := rem, left := s.seq.left - 1 }
    rendering := if rem = 0 then false else s.rendering }

/-- The one step of the engine that is enabled while `rendering = 1` (R216); none between RENDERs (R291). -/
def engineStep (s : State) : State :=
  if s.rendering then (if s.seq.left = 0 then chunkStart s else sampleStep s) else s

end Sys2Proof.Machine
end

