-- ==== Sys2Proof/Syntax.lean ====
section
/-! DEFINITION. The thirteen commands of the opcode map (R104), with the operands of R105. -/

namespace Sys2Proof

/-- The two command ports (R70): the C-port of the control agent and the R-port of the audio agent. -/
inductive Port where
  /-- the C-port -/
  | control
  /-- the R-port -/
  | render
deriving DecidableEq, Repr

/-- The commands, one constructor per row of spec/opcode_table.json. Every operand is a plain unsigned field (R105). -/
inductive Instr where
  /-- INIT sr (R260) -/
  | init (sr : Word)
  /-- DEINIT (R262) -/
  | deinit
  /-- RDSTAT (R264) -/
  | rdstat
  /-- PLAY note, vel, freq (R130) -/
  | play (note vel : BitVec 7) (freq : Word)
  /-- STOP note, imm (R131) -/
  | stop (note : BitVec 7) (imm : Bool)
  /-- PEDAL down (R132) -/
  | pedal (down : Bool)
  /-- WRP reg, value (R240) -/
  | wrp (reg : BitVec 8) (value : Word)
  /-- RDP reg (R241) -/
  | rdp (reg : BitVec 8)
  /-- SETDB index, value (R242) -/
  | setdb (index : BitVec 8) (value : Word)
  /-- GETDB index (R243) -/
  | getdb (index : BitVec 8)
  /-- SETHL index, value (R244) -/
  | sethl (index : BitVec 8) (value : Word)
  /-- GETHL index (R245) -/
  | gethl (index : BitVec 8)
  /-- RENDER ch, n (R215) -/
  | render (ch : BitVec 8) (n : Word)
deriving DecidableEq, Repr

/-- The port a command is legal on (R110): RENDER on the R-port, the other twelve on the C-port. -/
def Instr.port : Instr → Port
  | .init _ => .control
  | .deinit => .control
  | .rdstat => .control
  | .play _ _ _ => .control
  | .stop _ _ => .control
  | .pedal _ => .control
  | .wrp _ _ => .control
  | .rdp _ => .control
  | .setdb _ _ => .control
  | .getdb _ => .control
  | .sethl _ _ => .control
  | .gethl _ => .control
  | .render _ _ => .render

/-- Does the command append one word to the response stream (R78, R104)? -/
def Instr.responds : Instr → Bool
  | .init _ => true
  | .deinit => false
  | .rdstat => true
  | .play _ _ _ => false
  | .stop _ _ => false
  | .pedal _ => false
  | .wrp _ _ => false
  | .rdp _ => true
  | .setdb _ _ => false
  | .getdb _ => true
  | .sethl _ _ => false
  | .gethl _ => true
  | .render _ _ => false

end Sys2Proof
end

