-- ==== Sys2Proof/Machine/Dispatch.lean ====
section
/-! DEFINITION. One arm per command: its meaning. -/

namespace Sys2Proof.Machine

def exec (i : Instr) (s : State) : Host.Outcome State Fault Refusal :=
  match i with
  -- lifecycle
  | .init sr => Sys2Proof.Machine.execInit sr s
  | .deinit => Sys2Proof.Machine.execDeinit s
  | .rdstat => Sys2Proof.Machine.execRdstat s
  -- note control
  | .play note vel freq => Sys2Proof.Machine.execPlay note vel freq s
  | .stop note imm => Sys2Proof.Machine.execStop note imm s
  | .pedal down => Sys2Proof.Machine.execPedal down s
  -- parameters
  | .wrp reg value => Sys2Proof.Machine.execWrp reg value s
  | .rdp reg => Sys2Proof.Machine.execRdp reg s
  | .setdb index value => Sys2Proof.Machine.execSetdb index value s
  | .getdb index => Sys2Proof.Machine.execGetdb index s
  | .sethl index value => Sys2Proof.Machine.execSethl index value s
  | .gethl index => Sys2Proof.Machine.execGethl index s
  -- render
  | .render ch n => Sys2Proof.Machine.execRender ch n s

end Sys2Proof.Machine
end

