-- ==== Sys2Proof/WellFormed.lean ====
section
/-! DEFINITION. Well-formedness. The operand types of `Instr` hold exactly the values the fields can hold (R105), so what is
left to check of a command is the port it is offered at (R110); of a configuration, the constraints of R7 and R156. -/

namespace Sys2Proof

/-- A command is well formed on a port when it is legal there (R110). -/
abbrev Instr.WellFormedOn (i : Instr) (p : Port) : Prop := i.port = p

/-- `1 <= NV <= 256` (R7). -/
abbrev Params.nvOk (c : Params) : Prop := 1 ≤ c.nv ∧ c.nv ≤ 256

/-- `EVQ_DEPTH >= 1` (R7). -/
abbrev Params.evqDepthOk (c : Params) : Prop := 1 ≤ c.evqDepth

/-- `1 <= SR_MIN <= SR_MAX < 2^32` (R7). -/
abbrev Params.srOk (c : Params) : Prop := 1 ≤ c.srMin ∧ c.srMin ≤ c.srMax ∧ c.srMax < 2 ^ 32

/-- `SINE[i]` (R156). -/
abbrev Params.sineEntry (c : Params) (i : Nat) : Int := c.sine.getD i 0

/-- `|SINE[i]| <= 32767` at every entry (R7, R156). -/
abbrev Params.sineRangeOk (c : Params) : Prop := ∀ x ∈ c.sine, -32767 ≤ x ∧ x ≤ 32767

/-- The quarter points of the sine table: `SINE[0] = SINE[128] = 0`, `SINE[64] = 32767`, `SINE[192] = -32767` (R7, R156). -/
abbrev Params.sinePointsOk (c : Params) : Prop :=
  c.sineEntry 0 = 0 ∧ c.sineEntry 128 = 0 ∧ c.sineEntry 64 = 32767 ∧ c.sineEntry 192 = -32767

/-- The half periods are mirrored: `SINE[128 - i] = SINE[i]` for `0 <= i <= 128` (R156). -/
abbrev Params.sineMirrorOk (c : Params) : Prop := ∀ i < 129, c.sineEntry (128 - i) = c.sineEntry i

/-- The second half is the negative of the first: `SINE[128 + i] = -SINE[i]` for `0 <= i <= 127` (R156). -/
abbrev Params.sineOddOk (c : Params) : Prop := ∀ i < 128, c.sineEntry (128 + i) = -c.sineEntry i

/-- The sine table as a configuration field: 256 entries with exactly the properties that R156 names, among them those of R7. -/
abbrev Params.sineOk (c : Params) : Prop :=
  c.sine.length = 256 ∧ c.sineRangeOk ∧ c.sinePointsOk ∧ c.sineMirrorOk ∧ c.sineOddOk

/-- Nine drawbar ratios, each in 1..255 (R7). -/
abbrev Params.drawbarOk (c : Params) : Prop :=
  c.drawbarMult2.length = 9 ∧ ∀ x ∈ c.drawbarMult2, 1 ≤ x ∧ x ≤ 255

/-- `LESLIE_DEPTH` in 0..0x8000 (R7). -/
abbrev Params.leslieDepthOk (c : Params) : Prop := c.leslieDepth.toNat ≤ 0x8000

/-- `POWER_MAX` a multiple of 0x10000 in 0x10000..0xFF0000 (R7). -/
abbrev Params.powerMaxOk (c : Params) : Prop :=
  c.powerMax.toNat % 0x10000 = 0 ∧ 0x10000 ≤ c.powerMax.toNat ∧ c.powerMax.toNat ≤ 0xFF0000

/-- The constraints on a configuration: those of R7, with the properties of the sine table that R156 names. -/
abbrev Params.WellFormed (c : Params) : Prop :=
  c.nvOk ∧ c.evqDepthOk ∧ c.srOk ∧ c.sineOk ∧ c.drawbarOk ∧ c.leslieDepthOk ∧ c.powerMaxOk

end Sys2Proof
end

