-- ==== Sys2Proof/Decode.lean ====
section
/-! DEFINITION. The decoder of R103 (mask and match over the opcode map of R104), total on every 64-bit word and rejecting by
name, and after it the encoder, written from the field layout of R101. -/

namespace Sys2Proof

/-- The thirteen mnemonics of the opcode map (R104). -/
inductive Mnemonic where
  | INIT | DEINIT | RDSTAT | PLAY | STOP | PEDAL | WRP | RDP | SETDB | GETDB | SETHL | GETHL | RENDER
deriving DecidableEq, Repr

/-- One row of the opcode map (R104): a word belongs to the row when `word AND mask = pattern`. -/
structure OpcodeRow where
  name : Mnemonic
  port : Port
  pattern : CmdWord
  mask : CmdWord
deriving DecidableEq, Repr

/-- The opcode map (R104), with the table's `match` as `pattern`. -/
def opcodeTable : List OpcodeRow := [
  ⟨.INIT, .control, 0x0100000000000000, 0xFFFFFFFF00000000⟩,
  ⟨.DEINIT, .control, 0x0200000000000000, 0xFFFFFFFFFFFFFFFF⟩,
  ⟨.RDSTAT, .control, 0x0300000000000000, 0xFFFFFFFFFFFFFFFF⟩,
  ⟨.PLAY, .control, 0x1000000000000000, 0xFF8080FF00000000⟩,
  ⟨.STOP, .control, 0x1100000000000000, 0xFF80FEFFFFFFFFFF⟩,
  ⟨.PEDAL, .control, 0x1200000000000000, 0xFFFFFEFFFFFFFFFF⟩,
  ⟨.WRP, .control, 0x2000000000000000, 0xFF00FFFF00000000⟩,
  ⟨.RDP, .control, 0x2100000000000000, 0xFF00FFFFFFFFFFFF⟩,
  ⟨.SETDB, .control, 0x3000000000000000, 0xFF00FFFF00000000⟩,
  ⟨.GETDB, .control, 0x3100000000000000, 0xFF00FFFFFFFFFFFF⟩,
  ⟨.SETHL, .control, 0x3200000000000000, 0xFF00FFFF00000000⟩,
  ⟨.GETHL, .control, 0x3300000000000000, 0xFF00FFFFFFFFFFFF⟩,
  ⟨.RENDER, .render, 0x4000000000000000, 0xFF00FFFF00000000⟩]

/-- Does the word belong to the row (R103)? -/
def OpcodeRow.accepts (r : OpcodeRow) (w : CmdWord) : Bool := w &&& r.mask == r.pattern

/-- The opcode field OPC, bits 63:56 (R101). -/
def opcField (w : CmdWord) : BitVec 8 := w.extractLsb' 56 8

/-- The field A, bits 55:48 (R101). -/
def aField (w : CmdWord) : BitVec 8 := w.extractLsb' 48 8

/-- The seven-bit note operand, bits 54:48 (R105). -/
def noteField (w : CmdWord) : BitVec 7 := w.extractLsb' 48 7

/-- The seven-bit velocity operand, bits 46:40 (R105). -/
def velField (w : CmdWord) : BitVec 7 := w.extractLsb' 40 7

/-- The one-bit flag operand, bit 40 (R105). -/
def flagField (w : CmdWord) : Bool := w.getLsbD 40

/-- The data word D, bits 31:0 (R101). -/
def dField (w : CmdWord) : Word := w.extractLsb' 0 32

/-- Operand assembly (R105). -/
def operands (m : Mnemonic) (w : CmdWord) : Instr :=
  match m with
  | .INIT => .init (dField w)
  | .DEINIT => .deinit
  | .RDSTAT => .rdstat
  | .PLAY => .play (noteField w) (velField w) (dField w)
  | .STOP => .stop (noteField w) (flagField w)
  | .PEDAL => .pedal (flagField w)
  | .WRP => .wrp (aField w) (dField w)
  | .RDP => .rdp (aField w)
  | .SETDB => .setdb (aField w) (dField w)
  | .GETDB => .getdb (aField w)
  | .SETHL => .sethl (aField w) (dField w)
  | .GETHL => .gethl (aField w)
  | .RENDER => .render (aField w) (dField w)

/-- Why a word is illegal. R103 gives all of them the same single behaviour (BADCMD); the names are for the reader (DEDUCED, log
entry 15). -/
inductive Illegal where
  /-- the opcode is none of the thirteen (R108) -/
  | reservedOpcode
  /-- a must-be-zero bit is set (R107) -/
  | reservedBits
  /-- a legal pattern on the wrong port (R110) -/
  | wrongPort
  /-- not eight bytes (only where a host lays words out in bytes, R80) -/
  | notOneWord
deriving DecidableEq, Repr

/-- Is the opcode field one of the thirteen of R104? -/
def knownOpcode (w : CmdWord) : Bool := opcodeTable.any fun r => opcField r.pattern == opcField w

/-- Decode a word, whatever the port (R103): the row whose `(w AND mask) = match`, then its operands. -/
def decodeWord (w : CmdWord) : Except Illegal Instr :=
  match opcodeTable.find? (fun r => r.accepts w) with
  | some r => .ok (operands r.name w)
  | none => .error (if knownOpcode w then .reservedBits else .reservedOpcode)

/-- Decode a word that arrives at a port (R103, R110). -/
def decodeAt (p : Port) (w : CmdWord) : Except Illegal Instr :=
  match decodeWord w with
  | .ok i => if i.port = p then .ok i else .error .wrongPort
  | .error e => .error e

/-- The field layout of every command word (R101): OPC, A, B, Z = 0, D. -/
def packWord (opc a b : BitVec 8) (d : Word) : CmdWord := opc ++ a ++ b ++ 0#8 ++ d

/-- A one-bit flag in bit 0 of the field B (R101). -/
def flagByte (f : Bool) : BitVec 8 := (BitVec.ofBool f).setWidth 8

/-- The word of a command, from the opcode map (R104) and the formats of R102. -/
def encode : Instr → CmdWord
  | .init sr => packWord 0x01 0 0 sr
  | .deinit => packWord 0x02 0 0 0
  | .rdstat => packWord 0x03 0 0 0
  | .play note vel freq => packWord 0x10 (note.setWidth 8) (vel.setWidth 8) freq
  | .stop note imm => packWord 0x11 (note.setWidth 8) (flagByte imm) 0
  | .pedal down => packWord 0x12 0 (flagByte down) 0
  | .wrp reg value => packWord 0x20 reg 0 value
  | .rdp reg => packWord 0x21 reg 0 0
  | .setdb index value => packWord 0x30 index 0 value
  | .getdb index => packWord 0x31 index 0 0
  | .sethl index value => packWord 0x32 index 0 value
  | .gethl index => packWord 0x33 index 0 0
  | .render ch n => packWord 0x40 ch 0 n

/-- A word laid out in bytes, little-endian: the first byte holds bits 7:0 (R80). -/
def wordBytes (w : CmdWord) : List Byte :=
  [w.extractLsb' 0 8, w.extractLsb' 8 8, w.extractLsb' 16 8, w.extractLsb' 24 8,
   w.extractLsb' 32 8, w.extractLsb' 40 8, w.extractLsb' 48 8, w.extractLsb' 56 8]

/-- The word that eight bytes hold, little-endian (R80). -/
def ofWordBytes : List Byte → Option CmdWord
  | [b0, b1, b2, b3, b4, b5, b6, b7] => some (b7 ++ b6 ++ b5 ++ b4 ++ b3 ++ b2 ++ b1 ++ b0)
  | _ => none

/-- Decode a command laid out in bytes (R80), total on any bytes: not eight of them is refused by name. -/
def decodeBytes (p : Port) (bs : List Byte) : Except Illegal Instr :=
  match ofWordBytes bs with
  | some w => decodeAt p w
  | none => .error .notOneWord

/-- The command word whose low `nbits` bits are those of `w`, every bit above them 0. -/
def tableWord (nbits w : Nat) : CmdWord := BitVec.ofNat 64 (w % 2 ^ nbits)

/-- The instruction the decoder reads from the bits `w`, numbered as spec/opcode_table.json numbers them (bit 0 the least
significant bit of the one 64-bit word). -/
def decodeTableWord (nbits w : Nat) : Option Instr :=
  match decodeWord (tableWord nbits w) with
  | .ok i => some i
  | .error _ => none

end Sys2Proof
end

