-- ==== Sys2Proof/Machine/Ports.lean ====
section
/-! DEFINITION. Taking a turn and taking a word from a port (R71, R72, R73). -/

namespace Sys2Proof.Machine

/-- Whose turn is next: the head of the fixed schedule, and after it the free value (log entry 1). -/
def nextTurn (s : State) : Turn :=
  match s.sched with
  | t :: _ => t
  | [] => Config.freeTurn s.tick

/-- The state once the turn is taken: the fixed schedule loses its head, or the free value's argument moves on. -/
def takeTurn (s : State) : State :=
  match s.sched with
  | _ :: ts => { s with sched := ts }
  | [] => { s with tick := s.tick + 1 }

/-- The word the C-port takes, with the state after it is consumed; the C-port is always ready (R72). -/
def fetchControl (s : State) : Option (CmdWord × State) :=
  match s.cIn with
  | w :: ws => some (w, { s with cIn := ws })
  | [] => none

/-- The word the R-port takes, looked at only while no RENDER is in progress (R73). -/
def fetchRender (s : State) : Option (CmdWord × State) :=
  if s.rendering then none
  else
    match s.rIn with
    | w :: ws => some (w, { s with rIn := ws })
    | [] => none

/-- What an illegal word does (R103, R277): it is discarded and raises BADCMD; no response, nothing else. -/
def discardWord (s : State) : State := raise .badCmd s

/-- The port a table word is offered at (log entry 3): the port its command is legal on, the C-port if it is no command. -/
def offerPort (w : CmdWord) : Port :=
  match decodeWord w with
  | .ok i => i.port
  | .error _ => .control

/-- The state in which the very next turn takes the word `w` (log entry 3): the word is offered first at its port, the turn is that
port's, and for the R-port no RENDER is in progress (R73). -/
def offerWord (w : CmdWord) (s : State) : State :=
  match offerPort w with
  | .control => { s with cIn := w :: s.cIn, sched := .control :: s.sched }
  | .render => { s with rIn := w :: s.rIn, sched := .audio :: s.sched, rendering := false }

end Sys2Proof.Machine
end

