-- ==== Sys2Proof/Machine/Step.lean ====
section
/-! DEFINITION. One step of the device: the turn of one agent, which is one of the atomic steps of R71, or an assertion of the reset
input. -/

namespace Sys2Proof.Machine

/-- A word taken at a port: the command it decodes to, or an illegal word discarded (R103). -/
def runWord (p : Port) (w : CmdWord) (s : State) : Host.Outcome State Fault Refusal :=
  match decodeAt p w with
  | .ok i => exec i s
  | .error _ => .next (discardWord s)

/-- A port's turn: the word it takes is run; a port that takes no word does nothing (log entry 2). -/
def runPort (p : Port) (fetched : Option (CmdWord × State)) (s : State) : Host.Outcome State Fault Refusal :=
  match fetched with
  | some x => runWord p x.1 x.2
  | none => .next s

/-- One turn of one agent (R70, R71). -/
def runTurn (t : Turn) (s : State) : Host.Outcome State Fault Refusal :=
  match t with
  | .control => runPort .control (fetchControl s) s
  | .audio => runPort .render (fetchRender s) s
  | .engine => .next (engineStep s)
  | .reset => .next (hardReset s)

/-- One step of the device (R71). -/
def step (s : State) : Host.Outcome State Fault Refusal := runTurn (nextTurn s) (takeTurn s)

/-- The state in which the very next step takes and runs the command word `w` (log entry 3). -/
def State.withFetchWord (s : State) (nbits w : Nat) : State := offerWord (tableWord nbits w) s

end Sys2Proof.Machine
end

