-- ==== Sys2Proof/Safety.lean ====
section
/-! DEFINITION. What counts as a safe run and a sound state: the invariants of R59, with the canonical form of the output space and the
bounds of the sequencer. -/

namespace Sys2Proof.Machine

/-- R59 (a) and (c) for one slot: the level within full scale, an Idle slot silent and not held, a held slot in Attack, Decay or
Sustain. (That the stage is one of five is its type.) -/
structure Voice.Ok (v : Voice) : Prop where
  level_le : v.level.toNat ≤ envOne
  relStep_le : v.relStep.toNat ≤ envOne
  idle_level : v.stage = .idle → v.level = 0
  idle_free : v.stage = .idle → v.sustained = false
  held_stage : v.sustained = true → v.stage = .attack ∨ v.stage = .decay ∨ v.stage = .sustain

/-- Two slots that both sound the same note. -/
def Voice.clashes (v w : Voice) : Bool := v.sounding && w.sounding && v.note == w.note

/-- R59 (a), (b), (c) for the voice file: NV slots, each sound, no note in two of them. -/
structure Pool.Ok (nv : Nat) (pl : Pool) : Prop where
  slots : pl.voices.length = nv
  sound : ∀ v ∈ pl.voices, v.Ok
  unique : pl.voices.Pairwise (fun v w => v.clashes w = false)

/-- The address past everything written: while a RENDER runs, the first element of the sample to come; otherwise the first element
of the next RENDER. -/
def outBound (s : State) : Nat :=
  if s.rendering then outAddr s.renderNo s.seq.sIdx.toNat 0 else outAddr (s.renderNo + 1) 0 0

/-- The bounds of the sequencer (R56, R216): while a RENDER runs at least one sample is due, the chunk is no longer than what is due,
and the sample index stays below the 32-bit count; otherwise no chunk is open. -/
structure SequencerOk (s : State) : Prop where
  left_le : s.seq.left ≤ chunkSize
  due : s.rendering = true → 1 ≤ s.seq.rem.toNat
  left_due : s.rendering = true → s.seq.left ≤ s.seq.rem.toNat
  index_fits : s.rendering = true → s.seq.sIdx.toNat + s.seq.rem.toNat < 2 ^ 32
  closed : s.rendering = false → s.seq.left = 0

/-- The invariant of the machine: R59 (a) to (e), the sample rate within its bounds while initialised (R23), the output space in
canonical form with every element written before the next one to come (R77, R91), and the bounds of the sequencer. -/
structure State.Inv (s : State) : Prop where
  pool : s.pool.Ok s.cfg.nv
  incs : s.br.incHalf.length = s.cfg.nv
  sustain : s.br.susLvl.toNat ≤ envOne
  rotor : 0x10000 ≤ s.leslieCur.toNat ∧ s.leslieCur.toNat ≤ 0x80000
  queue : s.evq.length ≤ s.cfg.evqDepth
  rate : s.inited = true → s.cfg.srMin ≤ s.sr.toNat ∧ s.sr.toNat ≤ s.cfg.srMax
  outWf : s.out.wf
  outPast : ∀ x ∈ s.out, x.1 < outBound s
  seq : SequencerOk s

/-- A safe run of `k` steps: no step stops. -/
def SafeRun (k : Nat) (s : State) : Prop := ∃ t, Host.Core.run core k s = .next t

end Sys2Proof.Machine
end

