-- ==== Sys2Proof/Certificates/Slice0/Obligations.lean ====
section
/-! DEFINITION. The statements for the provers. Each docstring names the rule of spec/ it formalises; where a statement speaks of a
field that is the model's own (a log entry), it says so. Frames are stated as record updates: every field not named is unchanged. -/

open Sys2Proof Sys2Proof.Machine

/-! ### Encoding -/

/-- R101, R103 to R105: the decoder reads back every command from its word, at every value of every operand, on its port. -/
def Obligations.DecodeOfEncodeGivesTheCommand : Prop :=
  ∀ (p : Port) (i : Instr), i.WellFormedOn p → decodeAt p (encode i) = .ok i

/-- R103, R107, R109, R110: a word that is legal on a port is exactly the word of the command it decodes to, and the command is legal
there: no bit of a legal word is ignored. -/
def Obligations.EncodeOfDecodeGivesTheWord : Prop :=
  ∀ (p : Port) (w : CmdWord) (i : Instr), decodeAt p w = .ok i → encode i = w ∧ i.WellFormedOn p

/-- R103: the masks are built so that at most one row matches. -/
def Obligations.AtMostOneOpcodeRowMatches : Prop :=
  ∀ (w : CmdWord) (r r' : OpcodeRow), r ∈ opcodeTable → r' ∈ opcodeTable →
    r.accepts w = true → r'.accepts w = true → r = r'

/-- R115 (a sanity statement): the words of the spec's encoding examples decode and encode as it says, and the bytes of the PLAY
example are those it lists. -/
def Obligations.EncodingExamplesOfTheSpec : Prop :=
  decodeAt .control 0x010000000000AC44 = .ok (.init 44100) ∧
  decodeAt .control 0x103C64000105A148 = .ok (.play 60 100 0x0105A148) ∧
  decodeAt .control 0x113C010000000000 = .ok (.stop 60 true) ∧
  decodeAt .control 0x2005000000000400 = .ok (.wrp 0x05 0x400) ∧
  decodeAt .control 0x3303000000000000 = .ok (.gethl 3) ∧
  decodeAt .render 0x4001000000000200 = .ok (.render 1 512) ∧
  encode (.play 60 100 0x0105A148) = 0x103C64000105A148 ∧
  wordBytes 0x103C64000105A148 = [0x48, 0xA1, 0x05, 0x01, 0x00, 0x64, 0x3C, 0x10] ∧
  decodeBytes .control [0x48, 0xA1, 0x05, 0x01, 0x00, 0x64, 0x3C, 0x10] = .ok (.play 60 100 0x0105A148)

/-- R108: a word whose opcode is reserved is illegal on either port; the all-zero word is one. The reason given is the model's own name
(log entry 15). -/
def Obligations.ReservedOpcodesAreIllegal : Prop :=
  (∀ (p : Port) (w : CmdWord), let o := (w.extractLsb' 56 8).toNat
    (o = 0x00 ∨ (0x04 ≤ o ∧ o ≤ 0x0F) ∨ (0x13 ≤ o ∧ o ≤ 0x1F) ∨ (0x22 ≤ o ∧ o ≤ 0x2F) ∨ (0x34 ≤ o ∧ o ≤ 0x3F) ∨
      (0x41 ≤ o ∧ o ≤ 0xFF)) → decodeAt p w = .error .reservedOpcode) ∧
  ∀ p : Port, decodeAt p 0 = .error .reservedOpcode

/-- R107: a word with a must-be-zero bit set is illegal on either port, command by command. -/
def Obligations.MustBeZeroBitsAreIllegal : Prop :=
  ∀ (p : Port) (w : CmdWord),
    let o := (w.extractLsb' 56 8).toNat
    let a := w.extractLsb' 48 8
    let b := w.extractLsb' 40 8
    let z := w.extractLsb' 32 8
    let d := w.extractLsb' 0 32
    (z ≠ 0 ∨
      ((o = 0x01 ∨ o = 0x02 ∨ o = 0x03) ∧ (a ≠ 0 ∨ b ≠ 0)) ∨
      ((o = 0x02 ∨ o = 0x03 ∨ o = 0x11 ∨ o = 0x12 ∨ o = 0x21 ∨ o = 0x31 ∨ o = 0x33) ∧ d ≠ 0) ∨
      ((o = 0x10 ∨ o = 0x11) ∧ w.getLsbD 55 = true) ∨
      (o = 0x10 ∧ w.getLsbD 47 = true) ∨
      ((o = 0x11 ∨ o = 0x12) ∧ w.extractLsb' 41 7 ≠ 0) ∨
      (o = 0x12 ∧ a ≠ 0) ∨
      ((o = 0x20 ∨ o = 0x21 ∨ o = 0x30 ∨ o = 0x31 ∨ o = 0x32 ∨ o = 0x33 ∨ o = 0x40) ∧ b ≠ 0)) →
    ∃ e, decodeAt p w = .error e

/-- R110: RENDER is legal on the R-port only, the other twelve commands on the C-port only; a legal pattern on the wrong port is
illegal there. The reason given is the model's own name (log entry 15). -/
def Obligations.CommandsAreLegalOnTheirPortOnly : Prop :=
  (∀ (p : Port) (w : CmdWord) (i : Instr), decodeAt p w = .ok i → (p = .render ↔ ∃ ch n, i = .render ch n)) ∧
  (∀ i : Instr, (∀ ch n, i ≠ .render ch n) → decodeAt .render (encode i) = .error .wrongPort) ∧
  (∀ ch n, decodeAt .control (encode (.render ch n)) = .error .wrongPort)

/-! ### Steps -/

/-- R71, R72, R73, R103: when the word at a port whose turn it is decodes to a command legal there, the step consumes the word, takes the
turn and runs that command. How turns are given is the model's own (log entry 1). -/
def Obligations.StepRunsTheDecodedCommand : Prop :=
  (∀ s t ts, s.sched = t :: ts → nextTurn s = t ∧ takeTurn s = { s with sched := ts }) ∧
  (∀ s : State, s.sched = [] → nextTurn s = Config.freeTurn s.tick ∧ takeTurn s = { s with tick := s.tick + 1 }) ∧
  (∀ s w ws i, nextTurn s = .control → s.cIn = w :: ws → decodeAt .control w = .ok i →
    step s = exec i { takeTurn s with cIn := ws }) ∧
  (∀ s w ws i, nextTurn s = .audio → s.rendering = false → s.rIn = w :: ws → decodeAt .render w = .ok i →
    step s = exec i { takeTurn s with rIn := ws })

/-- R277: an illegal word is consumed and discarded and raises BADCMD, on both ports, in both lifecycle states; no response, nothing else.
The R-port looks at its next word only while no RENDER is in progress. Turns are the model's own (log entry 1), and so is that the R-port's
turn during a RENDER is a step that only takes the turn (log entry 2). -/
def Obligations.IllegalWordsAreDiscarded : Prop :=
  (∀ s w ws e, nextTurn s = .control → s.cIn = w :: ws → decodeAt .control w = .error e →
    step s = .next { takeTurn s with cIn := ws, flags := { s.flags with badCmd := true } }) ∧
  (∀ s w ws e, nextTurn s = .audio → s.rendering = false → s.rIn = w :: ws → decodeAt .render w = .error e →
    step s = .next { takeTurn s with rIn := ws, flags := { s.flags with badCmd := true } }) ∧
  (∀ s, nextTurn s = .audio → s.rendering = true → step s = .next (takeTurn s))

/-- R72, R73, R291 with log entry 2: a turn with nothing to do changes nothing: a port without a word, and the engine between RENDERs. -/
def Obligations.IdleTurnsChangeNothing : Prop :=
  (∀ s, nextTurn s = .control → s.cIn = [] → step s = .next (takeTurn s)) ∧
  (∀ s, nextTurn s = .audio → s.rIn = [] → step s = .next (takeTurn s)) ∧
  (∀ s, nextTurn s = .engine → s.rendering = false → step s = .next (takeTurn s))

/-- R216: while a RENDER is in progress the engine takes the one step that is enabled: the chunk start when no sample of the chunk is
left, the sample step otherwise. -/
def Obligations.EngineTakesTheEnabledStep : Prop :=
  (∀ s, nextTurn s = .engine → s.rendering = true → s.seq.left = 0 → step s = .next (chunkStart (takeTurn s))) ∧
  (∀ s, nextTurn s = .engine → s.rendering = true → 0 < s.seq.left → step s = .next (sampleStep (takeTurn s)))

/-- R72, R275, R276: nothing stops the device: every step and every command answers a next state. -/
def Obligations.EveryStepAnswersANextState : Prop :=
  (∀ s : State, ∃ t, step s = .next t) ∧ ∀ (i : Instr) (s : State), ∃ t, exec i s = .next t

/-- R300, R301: hardware reset puts every item at its reset value, abandons a RENDER, clears the flags, and leaves what is the
host's: responses, samples written, words waiting. The schedule and `renderNo` are the model's own (log entries 1, 5). -/
def Obligations.HardwareResetRestoresEveryItem : Prop :=
  ∀ s, nextTurn s = .reset →
    step s = .next { State.atReset s.cfg with
      resp := s.resp, out := s.out, renderNo := s.renderNo, cIn := s.cIn, rIn := s.rIn,
      sched := (takeTurn s).sched, tick := (takeTurn s).tick }

/-- R60: every item of state at its reset value, in every configuration. `State.reset` carries the default configuration (log entry 4), which
meets the constraints of R7 and the properties of the sine table that R156 names. -/
def Obligations.ResetValuesAreThoseOfTheSpec : Prop :=
  State.reset = State.atReset defaultParams ∧ defaultParams.WellFormed ∧
  ∀ c : Params, let s := State.atReset c
    s.inited = false ∧ s.rendering = false ∧ s.sr = 0 ∧ s.initStat = 0 ∧ s.flags = ⟨false, false, false, false⟩ ∧
    s.shadow.p = #v[0, 0, 0x8000, 0, 0x10000, 0x400, 0x1000, 0x8000, 0x1000, 0x10000, 0x10000, 0x10000, 0x10000] ∧
    s.shadow.db = #v[0, 0, 0x8000, 0, 0, 0, 0, 0, 0] ∧
    s.shadow.hl = #v[0x8000, 0, 0, 0, 0, 0, 0, 0, 0, 0, 0, 0, 0, 0, 0, 0] ∧
    s.shadow.mode = .drawbar ∧ s.active = s.shadow ∧ s.evq = [] ∧ s.pool.pedal = false ∧ s.pool.noteSerial = 0 ∧
    s.pool.voices.length = c.nv ∧
    (∀ v ∈ s.pool.voices, v.stage = .idle ∧ v.note = 0 ∧ v.vel = 0 ∧ v.freq = 0 ∧ (∀ j : Fin 16, v.phase[j] = 0) ∧
      v.level = 0 ∧ v.relStep = 0 ∧ v.sustained = false ∧ v.serial = 0) ∧
    s.leslieCur = 0x10000 ∧ s.rotorPhase = 0 ∧ s.vibPhase = 0 ∧ s.vibInc = 0 ∧
    s.br.vib = 0x10000 ∧ s.br.g = 0x10000 ∧ s.br.incHalf = List.replicate c.nv 0 ∧ s.br.attN = 0 ∧ s.br.decN = 0 ∧
    s.br.attStep = 0 ∧ s.br.decStep = 0 ∧ s.br.susLvl = 0 ∧ s.br.rotorInc = 0 ∧
    s.seq.chN = 0 ∧ s.seq.rem = 0 ∧ s.seq.sIdx = 0 ∧ s.seq.left = 0 ∧ s.seq.live = false

/-! ### Lifecycle commands -/

/-- R260: INIT answers and records its status, first match wins: 2 when initialised, 3 during a RENDER, 1 for a rate out of range, 0 and
the engine reset otherwise. A failed INIT changes `initStat` and the response stream only. `vibInc` is the quotient of R54 where it
fits 32 bits and otherwise open (log entry 8). -/
def Obligations.InitAnswersItsStatus : Prop :=
  ∀ (sr : Word) (s : State),
    (s.inited = true → exec (.init sr) s = .next { s with initStat := 2, resp := s.resp ++ [2] }) ∧
    (s.inited = false → s.rendering = true →
      exec (.init sr) s = .next { s with initStat := 3, resp := s.resp ++ [3] }) ∧
    (s.inited = false → s.rendering = false → (sr.toNat < s.cfg.srMin ∨ s.cfg.srMax < sr.toNat) →
      exec (.init sr) s = .next { s with initStat := 1, resp := s.resp ++ [1] }) ∧
    (s.inited = false → s.rendering = false → s.cfg.srMin ≤ sr.toNat → sr.toNat ≤ s.cfg.srMax →
      ∃ inc : Word,
        (s.cfg.vibRate.toNat * 65536 / sr.toNat < 2 ^ 32 → inc.toNat = s.cfg.vibRate.toNat * 65536 / sr.toNat) ∧
        exec (.init sr) s = .next { State.atReset s.cfg with
          inited := true, sr := sr, vibInc := inc, flags := s.flags, resp := s.resp ++ [0], out := s.out,
          renderNo := s.renderNo, cIn := s.cIn, rIn := s.rIn, sched := s.sched, tick := s.tick })

/-- R262: DEINIT clears `inited` and nothing else; on a device that is not initialised it raises NOTINIT. -/
def Obligations.DeinitClearsInited : Prop :=
  ∀ s : State,
    (s.inited = true → exec .deinit s = .next { s with inited := false }) ∧
    (s.inited = false → exec .deinit s = .next { s with flags := { s.flags with notInit := true } })

/-- R26, R264: RDSTAT appends STATUS, with every bit at its place, and changes nothing else, in either lifecycle state. -/
def Obligations.RdstatAnswersStatus : Prop :=
  ∀ s : State, ∃ w : Word,
    exec .rdstat s = .next { s with resp := s.resp ++ [w] } ∧
    w.toNat = s.inited.toNat + 2 * s.rendering.toNat + 16 * s.flags.badCmd.toNat + 32 * s.flags.badIdx.toNat +
      64 * s.flags.evqOvf.toNat + 128 * s.flags.notInit.toNat + 256 * s.initStat.toNat

/-! ### Note commands -/

/-- R130: PLAY queues one event; it raises NOTINIT on a device that is not initialised and EVQOVF on a full queue. -/
def Obligations.PlayQueuesOneEvent : Prop :=
  ∀ (note vel : BitVec 7) (freq : Word) (s : State),
    (s.inited = true → s.evq.length < s.cfg.evqDepth →
      exec (.play note vel freq) s = .next { s with evq := s.evq ++ [⟨.play, note, vel, freq⟩] }) ∧
    (s.inited = true → s.cfg.evqDepth ≤ s.evq.length →
      exec (.play note vel freq) s = .next { s with flags := { s.flags with evqOvf := true } }) ∧
    (s.inited = false → exec (.play note vel freq) s = .next { s with flags := { s.flags with notInit := true } })

/-- R131: STOP queues one event with the flag in bit 0 of its argument; NOTINIT and EVQOVF as PLAY. -/
def Obligations.StopQueuesOneEvent : Prop :=
  ∀ (note : BitVec 7) (imm : Bool) (s : State),
    (s.inited = true → s.evq.length < s.cfg.evqDepth →
      exec (.stop note imm) s = .next { s with evq := s.evq ++ [⟨.stop, note, if imm then 1 else 0, 0⟩] }) ∧
    (s.inited = true → s.cfg.evqDepth ≤ s.evq.length →
      exec (.stop note imm) s = .next { s with flags := { s.flags with evqOvf := true } }) ∧
    (s.inited = false → exec (.stop note imm) s = .next { s with flags := { s.flags with notInit := true } })

/-- R132: PEDAL queues one event with the flag in bit 0 of its argument; NOTINIT and EVQOVF as PLAY. -/
def Obligations.PedalQueuesOneEvent : Prop :=
  ∀ (down : Bool) (s : State),
    (s.inited = true → s.evq.length < s.cfg.evqDepth →
      exec (.pedal down) s = .next { s with evq := s.evq ++ [⟨.pedal, 0, if down then 1 else 0, 0⟩] }) ∧
    (s.inited = true → s.cfg.evqDepth ≤ s.evq.length →
      exec (.pedal down) s = .next { s with flags := { s.flags with evqOvf := true } }) ∧
    (s.inited = false → exec (.pedal down) s = .next { s with flags := { s.flags with notInit := true } })

/-! ### Parameter commands -/

/-- R240: WRP stores the value as written in the register it names and nothing else; an unassigned number or SRATE is discarded with
BADIDX, a device that is not initialised with NOTINIT. -/
def Obligations.WrpWritesOneRegister : Prop :=
  ∀ (reg : BitVec 8) (value : Word) (s : State),
    (s.inited = true → reg.toNat ≤ 0x0C →
      ∃ p : Vector Word 13,
        exec (.wrp reg value) s = .next { s with shadow := { s.shadow with p := p } } ∧
        ∀ r : Fin 13, p[r] = if r.val = reg.toNat then value else s.shadow.p[r]) ∧
    (s.inited = true → 0x0C < reg.toNat →
      exec (.wrp reg value) s = .next { s with flags := { s.flags with badIdx := true } }) ∧
    (s.inited = false → exec (.wrp reg value) s = .next { s with flags := { s.flags with notInit := true } })

/-- R241: RDP always appends one word: the shadow register, the sample rate for SRATE, 0 with BADIDX for an unassigned number, 0 with
NOTINIT on a device that is not initialised. -/
def Obligations.RdpAnswersOneRegister : Prop :=
  ∀ (reg : BitVec 8) (s : State),
    (s.inited = true → reg.toNat = 0x0F → exec (.rdp reg) s = .next { s with resp := s.resp ++ [s.sr] }) ∧
    (∀ r : Fin 13, s.inited = true → reg.toNat = r.val →
      exec (.rdp reg) s = .next { s with resp := s.resp ++ [s.shadow.p[r]] }) ∧
    (s.inited = true → 0x0C < reg.toNat → reg.toNat ≠ 0x0F →
      exec (.rdp reg) s = .next { s with resp := s.resp ++ [0], flags := { s.flags with badIdx := true } }) ∧
    (s.inited = false →
      exec (.rdp reg) s = .next { s with resp := s.resp ++ [0], flags := { s.flags with notInit := true } })

/-- R242: an accepted SETDB stores the level as written and makes Drawbar the timbre mode; the other levels and the harmonics are
untouched. A bad index is discarded with BADIDX and leaves the mode; NOTINIT as WRP. -/
def Obligations.SetdbWritesOneDrawbar : Prop :=
  ∀ (index : BitVec 8) (value : Word) (s : State),
    (s.inited = true → index.toNat ≤ 8 →
      ∃ db : Vector Word 9,
        exec (.setdb index value) s = .next { s with shadow := { s.shadow with db := db, mode := .drawbar } } ∧
        ∀ j : Fin 9, db[j] = if j.val = index.toNat then value else s.shadow.db[j]) ∧
    (s.inited = true → 8 < index.toNat →
      exec (.setdb index value) s = .next { s with flags := { s.flags with badIdx := true } }) ∧
    (s.inited = false → exec (.setdb index value) s = .next { s with flags := { s.flags with notInit := true } })

/-- R243: GETDB always appends one word: the shadow drawbar, or 0 with BADIDX or NOTINIT; the mode does not change. -/
def Obligations.GetdbAnswersOneDrawbar : Prop :=
  ∀ (index : BitVec 8) (s : State),
    (∀ j : Fin 9, s.inited = true → index.toNat = j.val →
      exec (.getdb index) s = .next { s with resp := s.resp ++ [s.shadow.db[j]] }) ∧
    (s.inited = true → 8 < index.toNat →
      exec (.getdb index) s = .next { s with resp := s.resp ++ [0], flags := { s.flags with badIdx := true } }) ∧
    (s.inited = false →
      exec (.getdb index) s = .next { s with resp := s.resp ++ [0], flags := { s.flags with notInit := true } })

/-- R244: an accepted SETHL stores the level as written and makes Harmonic the timbre mode; the other levels and the drawbars are
untouched. A bad index is discarded with BADIDX and leaves the mode; NOTINIT as WRP. -/
def Obligations.SethlWritesOneHarmonic : Prop :=
  ∀ (index : BitVec 8) (value : Word) (s : State),
    (s.inited = true → index.toNat ≤ 15 →
      ∃ hl : Vector Word 16,
        exec (.sethl index value) s = .next { s with shadow := { s.shadow with hl := hl, mode := .harmonic } } ∧
        ∀ j : Fin 16, hl[j] = if j.val = index.toNat then value else s.shadow.hl[j]) ∧
    (s.inited = true → 15 < index.toNat →
      exec (.sethl index value) s = .next { s with flags := { s.flags with badIdx := true } }) ∧
    (s.inited = false → exec (.sethl index value) s = .next { s with flags := { s.flags with notInit := true } })

/-- R245: GETHL always appends one word: the shadow harmonic level, or 0 with BADIDX or NOTINIT; the mode does not change. -/
def Obligations.GethlAnswersOneHarmonic : Prop :=
  ∀ (index : BitVec 8) (s : State),
    (∀ j : Fin 16, s.inited = true → index.toNat = j.val →
      exec (.gethl index) s = .next { s with resp := s.resp ++ [s.shadow.hl[j]] }) ∧
    (s.inited = true → 15 < index.toNat →
      exec (.gethl index) s = .next { s with resp := s.resp ++ [0], flags := { s.flags with badIdx := true } }) ∧
    (s.inited = false →
      exec (.gethl index) s = .next { s with resp := s.resp ++ [0], flags := { s.flags with notInit := true } })

/-! ### RENDER -/

/-- R215: the acceptance of a RENDER loads the sequencer and sets `rendering` unless no sample is asked for, whether or not the device is
initialised; no other item of the device's state changes. That a RENDER of no samples loads the sequencer too is the model's choice between
the rule's pseudocode and its prose (log entry 7); `renderNo` is the model's own (log entry 5). -/
def Obligations.RenderIsAccepted : Prop :=
  ∀ (ch : BitVec 8) (n : Word) (s : State),
    (n ≠ 0 → exec (.render ch n) s = .next { s with
      seq := { chN := ch, rem := n, sIdx := 0, left := 0, live := false }, rendering := true,
      renderNo := s.renderNo + 1 }) ∧
    exec (.render ch 0) s = .next { s with
      seq := { chN := ch, rem := 0, sIdx := 0, left := 0, live := false }, rendering := false }

/-- R77, R91, R216, R227, R232: an accepted RENDER of `n` samples is complete after exactly `cdiv(n, 16)` chunk starts and `n` sample steps
when the engine has every turn; every element of its output space is written, all channels alike, nothing else is, and the
samples are 0 if the device was not initialised. The schedule and the numbering of the elements are the
model's own (log entries 1, 5). -/
def Obligations.RenderCompletes : Prop :=
  ∀ (s : State) (n : Nat) (rest : List Turn),
    s.rendering = true → s.seq.left = 0 → s.seq.sIdx = 0 → s.seq.rem.toNat = n → 0 < n →
    s.sched = List.replicate ((n + 15) / 16 + n) .engine ++ rest →
    ∃ t : State, Host.Core.run core ((n + 15) / 16 + n) s = .next t ∧
      t.rendering = false ∧ t.seq.rem = 0 ∧ t.seq.sIdx.toNat = n ∧ t.sched = rest ∧ t.inited = s.inited ∧
      (∀ j < n, ∃ o : Sample, (∀ c < s.seq.chN.toNat, t.out.read (outAddr s.renderNo j c) = some o) ∧
        (s.inited = false → o = 0)) ∧
      (∀ a, (∀ j < n, ∀ c < s.seq.chN.toNat, a ≠ outAddr s.renderNo j c) → t.out.read a = s.out.read a)

/-! ### Invariants and rules of the whole machine -/

/-- R59, R60: the invariant holds right after hardware reset, in every configuration. -/
def Obligations.ResetMeetsTheInvariant : Prop := ∀ c : Params, (State.atReset c).Inv

/-- R59 (a) to (e), R23, R56, R77, R91: every step keeps the invariant, from every state that meets it. -/
def Obligations.StepKeepsTheInvariant : Prop :=
  ∀ s t : State, s.Inv → step s = .next t → t.Inv

/-- R25, R283: a flag once set stays set until hardware reset. -/
def Obligations.FlagsAreStickyUntilReset : Prop :=
  ∀ (s t : State) (c : Cond), nextTurn s ≠ .reset → step s = .next t → s.flags.get c = true → t.flags.get c = true

/-- R7: none of the parameters is state, no command changes one; nor does any step. -/
def Obligations.ConfigurationNeverChanges : Prop :=
  ∀ s t : State, step s = .next t → t.cfg = s.cfg

/-- R23, R216: the sample rate is fixed while the device stays initialised, and a step during a RENDER cannot make an uninitialised device
initialised. -/
def Obligations.RateIsFixedWhileInitialised : Prop :=
  (∀ s t : State, step s = .next t → s.inited = true → t.inited = true → t.sr = s.sr) ∧
  (∀ s t : State, step s = .next t → s.inited = false → s.rendering = true → t.inited = false)

/-- R20, R246, R285: ownership. A C-port command other than an accepted INIT writes only the lifecycle group, the shadow bank, the queue and the
response stream; an engine step writes only the active bank, the queue (which it empties or leaves), the engine state, the sequencer, the output space,
`rendering` and the NOTINIT flag. -/
def Obligations.EachAgentWritesItsOwnState : Prop :=
  (∀ (i : Instr) (s t : State), i.port = .control → (∀ sr, i = .init sr → initStatus sr s ≠ 0) → exec i s = .next t →
    t = { s with inited := t.inited, initStat := t.initStat, flags := t.flags, shadow := t.shadow, evq := t.evq, resp := t.resp }) ∧
  (∀ s : State, ∃ t, t = engineStep s ∧
    t = { s with
      active := t.active, evq := t.evq, pool := t.pool, leslieCur := t.leslieCur, rotorPhase := t.rotorPhase,
      vibPhase := t.vibPhase, br := t.br, seq := t.seq, out := t.out, rendering := t.rendering,
      flags := { s.flags with notInit := t.flags.notInit } } ∧
    (t.evq = s.evq ∨ t.evq = []))

/-- R78: a responder appends exactly one word to the response stream, every other command none. -/
def Obligations.RespondersAnswerExactlyOnce : Prop :=
  ∀ (i : Instr) (s t : State), exec i s = .next t →
    (i.responds = true → ∃ v, t.resp = s.resp ++ [v]) ∧ (i.responds = false → t.resp = s.resp)

/-- R71, R87: during the sample steps of a chunk the engine sees nothing the control agent does, and the control agent nothing of them: a C-port
command other than INIT and RDSTAT commutes with a sample step in every state. INIT and RDSTAT see `rendering` (R22), so they commute with
every sample step of a RENDER but its last. -/
def Obligations.ControlCommandsCommuteWithSamples : Prop :=
  (∀ (i : Instr) (s : State), i.port = .control → (∀ sr, i ≠ .init sr) → i ≠ .rdstat →
    ∃ u, exec i s = .next u ∧ exec i (sampleStep s) = .next (sampleStep u)) ∧
  (∀ (i : Instr) (s : State), i.port = .control → s.rendering = true → s.seq.rem ≠ 1 →
    ∃ u, exec i s = .next u ∧ exec i (sampleStep s) = .next (sampleStep u))

/-! ### Chunk starts -/

/-- R216, R227: the start of a silent chunk opens the chunk, sets NOTINIT, and changes nothing else; a silent sample writes 0 and moves only the
sequencer, the output space and `rendering`. -/
def Obligations.SilentChunksTouchNoEngineState : Prop :=
  (∀ s : State, s.inited = false →
    chunkStart s = { s with
      seq := { s.seq with left := min 16 s.seq.rem.toNat, live := false }, flags := { s.flags with notInit := true } }) ∧
  (∀ s : State, s.seq.live = false →
    sampleStep s = { s with
      out := s.out.writeChannels s.renderNo s.seq.sIdx.toNat s.seq.chN.toNat 0
      seq := { s.seq with sIdx := s.seq.sIdx + 1, rem := s.seq.rem - 1, left := s.seq.left - 1 }
      rendering := if s.seq.rem - 1 = 0 then false else s.rendering })

/-- R217: PREP does its six parts in order, as one step: the snapshot, the events with the parameters just snapshotted, the envelope constants and
transitions, the Leslie ramp and increment, the vibrato, the pitch; everything else is unchanged. R133, R219: the drained events are applied one by
one, head first, each completely before the next. -/
def Obligations.PrepDoesItsSixParts : Prop :=
  (∀ s : State, s.inited = true →
    let t := chunkStart s
    let len := min 16 s.seq.rem.toNat
    let drained := applyEvents s.shadow s.sr s.evq s.pool
    let env := envelopeConstants s.shadow s.sr s.br
    t.active = s.shadow ∧ t.evq = [] ∧
    t.pool = { drained with voices := drained.voices.map (stageTransition env) } ∧
    t.leslieCur.toNat = leslieRamp s.leslieCur.toNat (leslieTarget s.shadow) (leslieStep s.cfg s.sr len) ∧
    t.vibPhase.toNat = (s.vibPhase.toNat + len * s.vibInc.toNat) % 2 ^ 32 ∧
    t.br = { env with
      rotorInc := rotorIncrement s.cfg s.sr t.leslieCur
      vib := vibratoFactor s.cfg s.shadow s.vibPhase
      g := globalFactor s.shadow (vibratoFactor s.cfg s.shadow s.vibPhase)
      incHalf := t.pool.voices.map fun v => baseIncrement s.sr v.freq t.br.g } ∧
    t = { s with
      active := t.active, evq := t.evq, pool := t.pool, leslieCur := t.leslieCur, vibPhase := t.vibPhase, br := t.br
      seq := { s.seq with left := len, live := true } }) ∧
  (∀ (b : Bank) (sr : Word) (pl : Pool), applyEvents b sr [] pl = pl) ∧
  (∀ (b : Bank) (sr : Word) (e : Event) (es : List Event) (pl : Pool),
    applyEvents b sr (e :: es) pl = applyEvents b sr es (applyEvent b sr pl e))

/-- R171: the envelope constants of a PREP, none of them cut by the width of its register, and the steps large enough for a ramp to reach its
end point in its nominal number of samples. -/
def Obligations.EnvelopeConstantsOfPrep : Prop :=
  ∀ (b : Bank) (sr : Word) (r : BlockRate),
    let e := envelopeConstants b sr r
    let sus := min (b.p[0x07]).toNat 0x8000 * 2 ^ 15
    let attN := (b.p[0x05]).toNat * sr.toNat / 65536
    let decN := (b.p[0x06]).toNat * sr.toNat / 65536
    e.susLvl.toNat = sus ∧ e.attN.toNat = attN ∧ e.decN.toNat = decN ∧
    e.attStep.toNat = (if attN = 0 then 2 ^ 30 else (2 ^ 30 + attN - 1) / attN) ∧
    e.decStep.toNat = (if decN = 0 then 2 ^ 30 - sus else (2 ^ 30 - sus + decN - 1) / decN) ∧
    (attN ≠ 0 → 2 ^ 30 ≤ attN * e.attStep.toNat) ∧ (decN ≠ 0 → 2 ^ 30 - sus ≤ decN * e.decStep.toNat) ∧
    e.vib = r.vib ∧ e.g = r.g ∧ e.incHalf = r.incHalf ∧ e.rotorInc = r.rotorInc

/-- R201, R202: at a live chunk start the rotor speed moves toward the quantised target by at most the step and never passes it. -/
def Obligations.RotorSpeedMovesByABoundedStep : Prop :=
  ∀ s : State, s.inited = true →
    let t := chunkStart s
    let tgt := max 1 (min ((s.shadow.p[0x0C]).toNat / 65536) 8) * 65536
    let stp := max 1 (s.cfg.leslieAccel.toNat * min 16 s.seq.rem.toNat / s.sr.toNat)
    (s.leslieCur.toNat < tgt → t.leslieCur.toNat = min tgt (s.leslieCur.toNat + stp)) ∧
    (tgt < s.leslieCur.toNat → t.leslieCur.toNat = max tgt (s.leslieCur.toNat - stp)) ∧
    (s.leslieCur.toNat = tgt → t.leslieCur = s.leslieCur) ∧
    t.leslieCur.toNat ≤ s.leslieCur.toNat + stp ∧ s.leslieCur.toNat ≤ t.leslieCur.toNat + stp

/-- R152, R203: the rotor increment and the vibrato factor of a live chunk start, in integers. -/
def Obligations.RotorIncrementAndVibratoOfPrep : Prop :=
  ∀ s : State, s.inited = true →
    let t := chunkStart s
    let sine : Int := s.cfg.sine.getD (s.vibPhase.toNat / 2 ^ 24) 0
    t.br.rotorInc.toNat = t.leslieCur.toNat * s.cfg.leslieK.toNat / s.sr.toNat % 2 ^ 32 ∧
    (t.br.vib.toNat : Int) = (max 0 (min ((65536 : Int) + ((s.shadow.p[0x01]).toNat : Int) * sine / 2 ^ 15) (2 ^ 32 - 1)) : Int) ∧
    t.vibPhase.toNat = (s.vibPhase.toNat + min 16 s.seq.rem.toNat * s.vibInc.toNat) % 2 ^ 32

/-- R28, R151, R153: the frequency chain of a live chunk start, in integers: no product is cut by a width but where the rules saturate. -/
def Obligations.FrequencyChainOfPrep : Prop :=
  ∀ s : State, s.inited = true →
    let t := chunkStart s
    let pof : Int := max 0 ((65536 : Int) + (s.shadow.p[0x00]).toInt)
    let g1 : Int := min (((s.shadow.p[0x04]).toNat : Int) * pof / 2 ^ 16) (2 ^ 32 - 1)
    (t.br.g.toNat : Int) = min (g1 * (t.br.vib.toNat : Int) / 2 ^ 16) (2 ^ 32 - 1) ∧
    t.br.incHalf.length = t.pool.voices.length ∧
    ∀ (v : Nat) (x : Voice), t.pool.voices[v]? = some x →
      (t.br.incOf v).toNat = min (x.freq.toNat * t.br.g.toNat / 2 ^ 16) (2 ^ 32 - 1) * 32768 / s.sr.toNat

/-! ### Events -/

/-- R134, R135: the slot a PLAY takes is the first that exists in the order: the slot that sounds the note, the lowest free slot, the oldest
releasing slot, the oldest of all, ties to the lowest index; and there is always one. -/
def Obligations.PlayTakesTheSlotInOrder : Prop :=
  (∀ (now : Word) (note : BitVec 7) (vs : List Voice), vs ≠ [] → ∃ i, chooseSlot now note vs = some i) ∧
  ∀ (now : Word) (note : BitVec 7) (vs : List Voice) (i : Nat), chooseSlot now note vs = some i →
    let age := fun w : Voice => (now.toNat + 2 ^ 32 - w.serial.toNat) % 2 ^ 32
    let holds := fun w : Voice => w.stage ≠ .idle ∧ w.note = note
    ∃ v, vs[i]? = some v ∧
      ((holds v ∧ ∀ j w, j < i → vs[j]? = some w → ¬ holds w) ∨
       ((∀ w ∈ vs, ¬ holds w) ∧ v.stage = .idle ∧ ∀ j w, j < i → vs[j]? = some w → w.stage ≠ .idle) ∨
       ((∀ w ∈ vs, ¬ holds w ∧ w.stage ≠ .idle) ∧ v.stage = .release ∧
          ∀ j w, vs[j]? = some w → w.stage = .release → age w < age v ∨ (age w = age v ∧ i ≤ j)) ∨
       ((∀ w ∈ vs, ¬ holds w ∧ w.stage ≠ .idle ∧ w.stage ≠ .release) ∧
          ∀ j w, vs[j]? = some w → age w < age v ∨ (age w = age v ∧ i ≤ j)))

/-- R136: applying a PLAY starts the chosen slot from level 0 and phases 0, whatever it held, stamps it, and counts; the other slots and the pedal
are untouched. -/
def Obligations.PlayStartsTheChosenSlot : Prop :=
  ∀ (b : Bank) (sr : Word) (note vel : BitVec 7) (freq : Word) (pl : Pool) (i : Nat),
    chooseSlot pl.noteSerial note pl.voices = some i →
    let q : Pool := applyEvent b sr pl ⟨.play, note, vel, freq⟩
    q.pedal = pl.pedal ∧ q.noteSerial.toNat = (pl.noteSerial.toNat + 1) % 2 ^ 32 ∧ q.voices.length = pl.voices.length ∧
    (∀ j : Nat, j ≠ i → q.voices[j]? = pl.voices[j]?) ∧
    ∃ v, q.voices[i]? = some v ∧ v.stage = .attack ∧ v.note = note ∧ v.vel = vel ∧ v.freq = freq ∧
      (∀ j : Fin 16, v.phase[j] = 0) ∧ v.level = 0 ∧ v.relStep = 0 ∧ v.sustained = false ∧ v.serial = pl.noteSerial

/-- R137, R176: applying a STOP. Nothing happens if no slot sounds the note; otherwise only the lowest such slot changes: cut if immediate, left alone
if already releasing, marked as held if the pedal is down, else released from its current level. -/
def Obligations.StopActsOnTheSoundingSlot : Prop :=
  ∀ (b : Bank) (sr : Word) (note : BitVec 7) (imm : Bool) (pl : Pool),
    let q : Pool := applyEvent b sr pl ⟨.stop, note, if imm then 1 else 0, 0⟩
    let holds := fun w : Voice => w.stage ≠ .idle ∧ w.note = note
    let relN := (b.p[0x08]).toNat * sr.toNat / 65536
    ((∀ w ∈ pl.voices, ¬ holds w) → q = pl) ∧
    ∀ (i : Nat) (v : Voice), pl.voices[i]? = some v → holds v → (∀ (j : Nat) (w : Voice), j < i → pl.voices[j]? = some w → ¬ holds w) →
      q.pedal = pl.pedal ∧ q.noteSerial = pl.noteSerial ∧ q.voices.length = pl.voices.length ∧
      (∀ j : Nat, j ≠ i → q.voices[j]? = pl.voices[j]?) ∧
      ∃ v', q.voices[i]? = some v' ∧
        (imm = true → v' = { v with stage := .idle, level := 0, relStep := 0, sustained := false }) ∧
        (imm = false → v.stage = .release → v' = v) ∧
        (imm = false → v.stage ≠ .release → pl.pedal = true → v' = { v with sustained := true }) ∧
        (imm = false → v.stage ≠ .release → pl.pedal = false → relN = 0 →
          v' = { v with stage := .release, level := 0, relStep := 0, sustained := false }) ∧
        (imm = false → v.stage ≠ .release → pl.pedal = false → relN ≠ 0 →
          v'.relStep.toNat = (v.level.toNat + relN - 1) / relN ∧
          v' = { v with stage := .release, relStep := v'.relStep, sustained := false })

/-- R139: applying a PEDAL. On the way up every held slot enters Release and no other slot changes; otherwise no slot changes. -/
def Obligations.PedalUpReleasesTheHeldSlots : Prop :=
  ∀ (b : Bank) (sr : Word) (down : Bool) (pl : Pool),
    let q : Pool := applyEvent b sr pl ⟨.pedal, 0, if down then 1 else 0, 0⟩
    q.pedal = down ∧ q.noteSerial = pl.noteSerial ∧ q.voices.length = pl.voices.length ∧
    ∀ (i : Nat) (v : Voice), pl.voices[i]? = some v →
      (pl.pedal = true → down = false → v.sustained = true → q.voices[i]? = some (enterRelease b sr v)) ∧
      ((pl.pedal = false ∨ down = true ∨ v.sustained = false) → q.voices[i]? = some v)

/-- R88, R141 (a): a PLAY and an immediate STOP of the same note in one drain leave no slot sounding the note. -/
def Obligations.PlayThenHardCutNeverSounds : Prop :=
  ∀ (b : Bank) (sr : Word) (note vel : BitVec 7) (freq : Word) (pl : Pool) (nv : Nat), pl.Ok nv →
    ∀ w ∈ (applyEvents b sr [⟨.play, note, vel, freq⟩, ⟨.stop, note, 1, 0⟩] pl).voices, w.stage = .idle ∨ w.note ≠ note

/-! ### The envelope -/

/-- R172: the stage transitions of one slot at PREP, stage by stage; a voice can pass through Attack, Decay and Sustain in one PREP. -/
def Obligations.StageTransitionsOfPrep : Prop :=
  ∀ (r : BlockRate) (v : Voice),
    let t := stageTransition r v
    (v.stage = .idle → t = v) ∧
    (v.stage = .attack → ¬ (r.attN = 0 ∨ 2 ^ 30 ≤ v.level.toNat) → t = v) ∧
    (v.stage = .attack → (r.attN = 0 ∨ 2 ^ 30 ≤ v.level.toNat) → ¬ (r.decN = 0 ∨ 2 ^ 30 ≤ r.susLvl.toNat) →
      t = { v with stage := .decay, level := 0x40000000#31 }) ∧
    (v.stage = .attack → (r.attN = 0 ∨ 2 ^ 30 ≤ v.level.toNat) → (r.decN = 0 ∨ 2 ^ 30 ≤ r.susLvl.toNat) →
      t = { v with stage := .sustain, level := r.susLvl }) ∧
    (v.stage = .decay → ¬ (r.decN = 0 ∨ v.level.toNat ≤ r.susLvl.toNat) → t = v) ∧
    (v.stage = .decay → (r.decN = 0 ∨ v.level.toNat ≤ r.susLvl.toNat) →
      t = { v with stage := .sustain, level := r.susLvl }) ∧
    (v.stage = .sustain → t = { v with level := r.susLvl }) ∧
    (v.stage = .release → v.level ≠ 0 → t = v) ∧
    (v.stage = .release → v.level = 0 → t = { v with stage := .idle, sustained := false, relStep := 0 })

/-- R174: the level update of a sample writes the level only, and the level never leaves 0..ENV_ONE. -/
def Obligations.EnvelopeStepMovesTheLevel : Prop :=
  ∀ (r : BlockRate) (v : Voice), v.level.toNat ≤ 2 ^ 30 → r.susLvl.toNat ≤ 2 ^ 30 →
    let t := envStep r v
    t = { v with level := t.level } ∧ t.level.toNat ≤ 2 ^ 30 ∧
    (v.stage = .attack → t.level.toNat = min (2 ^ 30) (v.level.toNat + r.attStep.toNat)) ∧
    (v.stage = .decay → (t.level.toNat : Int) = max (r.susLvl.toNat : Int) ((v.level.toNat : Int) - r.decStep.toNat)) ∧
    (v.stage = .sustain → t.level = v.level) ∧
    (v.stage = .release → (t.level.toNat : Int) = max 0 ((v.level.toNat : Int) - v.relStep.toNat))

/-- R176, R178: from the moment a voice enters Release its level never rises, is 0 after the release length in samples and stays 0, and the next PREP
makes the slot Idle. -/
def Obligations.ReleaseReachesSilenceInItsTime : Prop :=
  ∀ (b : Bank) (sr : Word) (r : BlockRate) (v : Voice),
    let relN := (b.p[0x08]).toNat * sr.toNat / 65536
    let after := fun k : Nat => (envStep r)^[k] (enterRelease b sr v)
    (∀ k, (after k).stage = .release) ∧ (∀ k, (after (k + 1)).level.toNat ≤ (after k).level.toNat) ∧
    (∀ k, relN ≤ k → (after k).level = 0 ∧ (stageTransition r (after k)).stage = .idle)

/-- R171, R174, R181: a voice in Attack climbs by the attack step each sample and is at full level after the attack length in samples, when that is
not 0. -/
def Obligations.AttackReachesFullLevelInItsTime : Prop :=
  ∀ (b : Bank) (sr : Word) (r : BlockRate) (v : Voice),
    let e := envelopeConstants b sr r
    let attN := (b.p[0x05]).toNat * sr.toNat / 65536
    v.stage = .attack → v.level.toNat ≤ 2 ^ 30 → attN ≠ 0 →
    (∀ k, ((envStep e)^[k] v).level.toNat = min (2 ^ 30) (v.level.toNat + k * e.attStep.toNat)) ∧
    (∀ k, attN ≤ k → ((envStep e)^[k] v).level.toNat = 2 ^ 30)

/-! ### The signal path -/

/-- R51, R155, R159, R231: one step of the oscillator bank, in integers. The sum runs over the partials of the active mode below half the sample rate;
every accumulator of the mode advances modulo 2^32 by its increment whatever its level, and the others hold. -/
def Obligations.OscillatorBankStep : Prop :=
  ∀ (c : Params) (b : Bank) (inc : BitVec 48) (v : Voice),
    let np := match b.mode with | .drawbar => 9 | .harmonic => 16
    let mult := fun j : Nat => match b.mode with | .drawbar => c.drawbarMult2.getD j 0 | .harmonic => 2 * (j + 1)
    let lvl := fun j : Fin 16 => match b.mode with
      | .drawbar => min ((b.db[j.val]?.getD 0).toNat) 32768
      | .harmonic => min (b.hl[j]).toNat 32768
    oscOut c b inc v =
      (∑ j : Fin 16, if j.val < np ∧ mult j * inc.toNat < 2 ^ 31 then
        (lvl j : Int) * c.sine.getD ((v.phase[j]).toNat / 2 ^ 24) 0 else 0) / 2 ^ 15 ∧
    ∀ j : Fin 16, ((oscAdvance c b.mode inc v)[j]).toNat =
      if j.val < np then ((v.phase[j]).toNat + mult j * inc.toNat) % 2 ^ 32 else (v.phase[j]).toNat

/-- R190 to R193, R195: the three steps of the waveshaper in integers, on every mix and for every register setting, and their composition; and
the shape of the curve: 0 at 0, bounded by full scale, saturated beyond it, odd, non-decreasing, and on or above the identity from 0 to full scale. -/
def Obligations.WaveshaperCurveShape : Prop :=
  ∀ (c : Params) (b : Bank),
    (∀ mix : Int, drive b mix = mix * ((b.p[0x0A]).toNat : Int) / 2 ^ 16) ∧
    (∀ w : Int, gain b w = w * ((b.p[0x0B]).toNat : Int) / 2 ^ 16) ∧
    (∀ mix : Int, distort c b mix = gain b (shape c b (drive b mix))) ∧
    (∀ d : Int,
      let pEff : Nat := max 65536 (min (b.p[0x09]).toNat c.powerMax.toNat)
      let n : Nat := pEff / 2 ^ 16
      let fr : Int := (pEff % 2 ^ 16 : Nat)
      let u : Nat := 32768 - min d.natAbs 32768
      let pw : Nat := (fun x => x * u / 2 ^ 15)^[n - 1] u
      let pw1 : Nat := pw * u / 2 ^ 15
      let y0 : Int := 32768 - (pw : Int)
      let y1 : Int := 32768 - (pw1 : Int)
      let y : Int := y0 + (y1 - y0) * fr / 2 ^ 16
      shape c b d = if d < 0 then -y else y) ∧
    shape c b 0 = 0 ∧
    (∀ d, -32768 ≤ shape c b d ∧ shape c b d ≤ 32768) ∧
    (∀ d, 32768 ≤ d → shape c b d = 32768) ∧ (∀ d, d ≤ -32768 → shape c b d = -32768) ∧
    (∀ d, shape c b (-d) = -shape c b d) ∧
    (∀ d d', d ≤ d' → shape c b d ≤ shape c b d') ∧
    (∀ d, 0 ≤ d → d ≤ 32768 → d ≤ shape c b d)

/-- R155, R197: bounds of the signal path in a state that meets the invariant, whose sine entries are in range (R7): one voice, the mix, the
distorted signal. (R193 and R197 write |g| < 2^31; their own formula gives -2^31 for full negative scale at the largest gain: log entry 17.) -/
def Obligations.SignalPathIsBounded : Prop :=
  ∀ s : State, s.cfg.sineRangeOk → s.Inv →
    (∀ (inc : BitVec 48) (v : Voice), -524272 ≤ oscOut s.cfg s.active inc v ∧ oscOut s.cfg s.active inc v ≤ 524272) ∧
    -(s.cfg.nv * 524272 : Int) ≤ mixVoices s ∧ mixVoices s ≤ s.cfg.nv * 524272 ∧
    ∀ mix : Int, -(2 ^ 31) ≤ distort s.cfg s.active mix ∧ distort s.cfg s.active mix < 2 ^ 31

/-- R204: the rotor gain and its application, in integers, in every configuration at every rotor phase. With sine entries and depth in range (R7)
the gain lies between `32768 - LESLIE_DEPTH` and 32768, so the stage never amplifies; at depth 0 it is the identity. -/
def Obligations.LeslieNeverAmplifies : Prop :=
  ∀ (c : Params) (phase : Word),
    leslieGain c phase =
      32768 - (c.leslieDepth.toNat : Int) * (32768 - c.sine.getD (phase.toNat / 2 ^ 24) 0) / 2 ^ 16 ∧
    (∀ g : Int, leslieApply c phase g = g * leslieGain c phase / 2 ^ 15) ∧
    (c.leslieDepth = 0 → ∀ g : Int, leslieApply c phase g = g) ∧
    (c.sineRangeOk → c.leslieDepthOk →
      32768 - (c.leslieDepth.toNat : Int) ≤ leslieGain c phase ∧ leslieGain c phase ≤ 32768 ∧
      ∀ g : Int, (leslieApply c phase g).natAbs ≤ g.natAbs)

/-- R222: the amplitude of a voice, in integers: within 0..32768, 32768 at sensitivity 0, `vel / 127` at full sensitivity. -/
def Obligations.VelocityAmplitude : Prop :=
  ∀ (b : Bank) (v : Voice),
    let vs := min (b.p[0x03]).toNat 32768
    amplitude b v = (32768 - vs) + vs * v.vel.toNat / 127 ∧ amplitude b v ≤ 32768 ∧
    (vs = 0 → amplitude b v = 32768) ∧ (vs = 32768 → v.vel = 0 → amplitude b v = 0) ∧
    (v.vel = 127 → amplitude b v = 32768)

/-- R226: master volume and the output saturation, in integers; a master volume of 0 makes every sample 0. -/
def Obligations.MasterVolumeAndSaturation : Prop :=
  (∀ (b : Bank) (l : Int),
    (master b l).toInt = max (-32768) (min (l * min (b.p[0x02]).toNat 32768 / 2 ^ 15) 32767)) ∧
  ∀ s : State, s.active.p[0x02] = 0 → sampleOut s = 0

/-- R220: with no voice sounding a SAMPLE is 0 and moves no slot, only the rotor phase. -/
def Obligations.SilenceWithoutVoices : Prop :=
  ∀ s : State, (∀ v ∈ s.pool.voices, v.stage = .idle) →
    sampleOut s = 0 ∧ sampleNext s = { s with rotorPhase := s.rotorPhase + s.br.rotorInc }

/-- R175, R216, R220, R221, R223, R224, R226: the value of a SAMPLE, in integers. The mix is the sum over the non-Idle slots of the oscillator
bank's output, weighted by the level as it stands before the sample and then by the amplitude; then Distort, then Leslie at the phase before it
advances, then Master. A silent sample is 0. R91, R225: the one value is written to every channel at the current index and to no other element; the
output space keeps its canonical form (log entry 5). What `oscOut`, `amplitude`, `distort` and `leslieApply` are is stated by OscillatorBankStep,
VelocityAmplitude, WaveshaperCurveShape and LeslieNeverAmplifies. -/
def Obligations.SampleStepWritesEveryChannel : Prop :=
  ∀ s : State,
    let slots := s.pool.voices.zipIdx.filter fun x => decide (x.1.stage ≠ .idle)
    let mix : Int := (slots.map fun x =>
      oscOut s.cfg s.active (s.br.incHalf.getD x.2 0) x.1 * ((x.1.level.toNat / 2 ^ 15 : Nat) : Int) / 2 ^ 15
        * (amplitude s.active x.1 : Int) / 2 ^ 15).sum
    let l : Int := leslieApply s.cfg s.rotorPhase (distort s.cfg s.active mix)
    let o : Sample := if s.seq.live then sampleOut s else 0
    (sampleOut s).toInt = max (-32768) (min (l * ((min (s.active.p[0x02]).toNat 32768 : Nat) : Int) / 2 ^ 15) 32767) ∧
    (∀ c < s.seq.chN.toNat, (sampleStep s).out.read (outAddr s.renderNo s.seq.sIdx.toNat c) = some o) ∧
    (∀ a, (∀ c < s.seq.chN.toNat, a ≠ outAddr s.renderNo s.seq.sIdx.toNat c) → (sampleStep s).out.read a = s.out.read a) ∧
    (s.out.wf → (sampleStep s).out.wf)

/-- R205, R220: a live sample step moves the non-idle slots, each by `VoiceOut`, and the rotor phase modulo 2^32; an Idle slot is untouched, and so is
every other item of engine state and everything of the control side. -/
def Obligations.LiveSampleStepFrame : Prop :=
  ∀ s : State, s.seq.live = true →
    let t := sampleStep s
    t.rotorPhase.toNat = (s.rotorPhase.toNat + s.br.rotorInc.toNat) % 2 ^ 32 ∧
    t.pool.voices.length = s.pool.voices.length ∧
    (∀ (i : Nat) (v : Voice), s.pool.voices[i]? = some v →
      (v.stage = .idle → t.pool.voices[i]? = some v) ∧
      (v.stage ≠ .idle → t.pool.voices[i]? =
        some (envStep s.br { v with phase := oscAdvance s.cfg s.active.mode (s.br.incOf i) v }))) ∧
    t = { s with
      pool := { s.pool with voices := t.pool.voices }, rotorPhase := t.rotorPhase, out := t.out
      seq := { s.seq with sIdx := s.seq.sIdx + 1, rem := s.seq.rem - 1, left := s.seq.left - 1 }
      rendering := if s.seq.rem - 1 = 0 then false else s.rendering }
end

