-- ==== Sys2Proof/Laws/Decode.lean ====
section
/-! SUPPORT. Lemmas about the fields of a command word: what each field of `packWord` is, every word as its five fields, and the mask of
a row field by field. The provers cite these instead of reasoning about 64 bits. -/

namespace Sys2Proof

/-- Five fields side by side: a word of the layout of R101, with any Z. -/
def joinFields (o a b z : BitVec 8) (d : Word) : CmdWord := o ++ a ++ b ++ z ++ d

theorem packWord_eq (o a b : BitVec 8) (d : Word) : packWord o a b d = joinFields o a b 0 d := rfl

/-- A bit of a word of five fields. -/
theorem getLsbD_joinFields (o a b z : BitVec 8) (d : Word) (i : Nat) :
    (joinFields o a b z d).getLsbD i =
      if i < 32 then d.getLsbD i else if i < 40 then z.getLsbD (i - 32) else if i < 48 then b.getLsbD (i - 40)
      else if i < 56 then a.getLsbD (i - 48) else o.getLsbD (i - 56) := by
  simp only [joinFields, BitVec.getLsbD_append]
  by_cases h0 : i < 32
  · simp [h0]
  by_cases h1 : i < 40
  · simp [h0, h1, show i - 32 < 8 by omega]
  by_cases h2 : i < 48
  · simp [h0, h1, h2, show ¬ i - 32 < 8 by omega, show i - 40 < 8 by omega, show i - 32 - 8 = i - 40 by omega]
  by_cases h3 : i < 56
  · simp [h0, h1, h2, h3, show ¬ i - 32 < 8 by omega, show ¬ i - 32 - 8 < 8 by omega, show i - 48 < 8 by omega,
      show i - 32 - 8 - 8 = i - 48 by omega]
  · simp [h0, h1, h2, h3, show ¬ i - 32 < 8 by omega, show ¬ i - 32 - 8 < 8 by omega, show ¬ i - 32 - 8 - 8 < 8 by omega,
      show i - 32 - 8 - 8 - 8 = i - 56 by omega]

section fields
variable (o a b z : BitVec 8) (d : Word)

/-- Bits from `k` on, `n` of them, of a field at bit 48. -/
theorem extract48_joinFields (n : Nat) (h : n ≤ 8) : (joinFields o a b z d).extractLsb' 48 n = a.extractLsb' 0 n := by
  apply BitVec.eq_of_getLsbD_eq; intro i hi
  simp only [BitVec.getLsbD_extractLsb', getLsbD_joinFields]
  rw [if_neg (by omega), if_neg (by omega), if_neg (by omega), if_pos (by omega)]
  simp

/-- Bits from `k` on, `n` of them, of a field at bit 40. -/
theorem extract40_joinFields (n : Nat) (h : n ≤ 8) : (joinFields o a b z d).extractLsb' 40 n = b.extractLsb' 0 n := by
  apply BitVec.eq_of_getLsbD_eq; intro i hi
  simp only [BitVec.getLsbD_extractLsb', getLsbD_joinFields]
  rw [if_neg (by omega), if_neg (by omega), if_pos (by omega)]
  simp

theorem extractO_joinFields : (joinFields o a b z d).extractLsb' 56 8 = o := by
  apply BitVec.eq_of_getLsbD_eq; intro i hi
  simp only [BitVec.getLsbD_extractLsb', getLsbD_joinFields]
  rw [if_neg (by omega), if_neg (by omega), if_neg (by omega), if_neg (by omega)]
  simp [hi]

theorem extractA_joinFields : (joinFields o a b z d).extractLsb' 48 8 = a := by
  rw [extract48_joinFields _ _ _ _ _ 8 (by omega)]; simp

theorem extractB_joinFields : (joinFields o a b z d).extractLsb' 40 8 = b := by
  rw [extract40_joinFields _ _ _ _ _ 8 (by omega)]; simp

theorem extractZ_joinFields : (joinFields o a b z d).extractLsb' 32 8 = z := by
  apply BitVec.eq_of_getLsbD_eq; intro i hi
  simp only [BitVec.getLsbD_extractLsb', getLsbD_joinFields]
  rw [if_neg (by omega), if_pos (by omega)]
  simp [hi]

theorem extractD_joinFields : (joinFields o a b z d).extractLsb' 0 32 = d := by
  apply BitVec.eq_of_getLsbD_eq; intro i hi
  simp only [BitVec.getLsbD_extractLsb', getLsbD_joinFields]
  rw [if_pos (by omega)]
  simp [hi]

@[simp] theorem opcField_packWord : opcField (packWord o a b d) = o := extractO_joinFields o a b 0 d

@[simp] theorem aField_packWord : aField (packWord o a b d) = a := extractA_joinFields o a b 0 d

@[simp] theorem noteField_packWord : noteField (packWord o a b d) = a.extractLsb' 0 7 :=
  extract48_joinFields o a b 0 d 7 (by omega)

@[simp] theorem velField_packWord : velField (packWord o a b d) = b.extractLsb' 0 7 :=
  extract40_joinFields o a b 0 d 7 (by omega)

@[simp] theorem flagField_packWord : flagField (packWord o a b d) = b[0] := by
  rw [flagField, packWord_eq, getLsbD_joinFields]; rfl

@[simp] theorem dField_packWord : dField (packWord o a b d) = d := extractD_joinFields o a b 0 d

end fields

/-- The low seven bits of a seven-bit operand in its byte are the operand. -/
@[simp] theorem low7_setWidth (x : BitVec 7) : (x.setWidth 8).extractLsb' 0 7 = x := by revert x; decide

/-- Bit 0 of a flag's byte is the flag. -/
@[simp] theorem bit0_flagByte (f : Bool) : (flagByte f)[0] = f := by cases f <;> rfl

/-- Every word is its five fields side by side (R101). -/
theorem word_eq_fields (w : CmdWord) :
    w = joinFields (opcField w) (aField w) (w.extractLsb' 40 8) (w.extractLsb' 32 8) (dField w) := by
  apply BitVec.eq_of_getLsbD_eq
  intro i hi
  simp only [getLsbD_joinFields, opcField, aField, dField, BitVec.getLsbD_extractLsb']
  split_ifs with h0 h1 h2 h3
  · simp [h0]
  · simp [show i - 32 < 8 by omega, show 32 + (i - 32) = i by omega]
  · simp [show i - 40 < 8 by omega, show 40 + (i - 40) = i by omega]
  · simp [show i - 48 < 8 by omega, show 48 + (i - 48) = i by omega]
  · simp [show i - 56 < 8 by omega, show 56 + (i - 56) = i by omega]

/-- Words of five fields are equal when the fields are. -/
theorem joinFields_inj {o a b z o' a' b' z' : BitVec 8} {d d' : Word} :
    joinFields o a b z d = joinFields o' a' b' z' d' ↔ o = o' ∧ a = a' ∧ b = b' ∧ z = z' ∧ d = d' := by
  constructor
  · intro h
    refine ⟨?_, ?_, ?_, ?_, ?_⟩
    · rw [← extractO_joinFields o a b z d, h, extractO_joinFields]
    · rw [← extractA_joinFields o a b z d, h, extractA_joinFields]
    · rw [← extractB_joinFields o a b z d, h, extractB_joinFields]
    · rw [← extractZ_joinFields o a b z d, h, extractZ_joinFields]
    · rw [← extractD_joinFields o a b z d, h, extractD_joinFields]
  · rintro ⟨rfl, rfl, rfl, rfl, rfl⟩; rfl

/-- A mask applies field by field. -/
theorem joinFields_and (o a b z o' a' b' z' : BitVec 8) (d d' : Word) :
    joinFields o a b z d &&& joinFields o' a' b' z' d' =
      joinFields (o &&& o') (a &&& a') (b &&& b') (z &&& z') (d &&& d') := by
  apply BitVec.eq_of_getLsbD_eq
  intro i hi
  simp only [BitVec.getLsbD_and, getLsbD_joinFields]
  split_ifs <;> rfl

/-- A row whose mask and pattern are given field by field accepts a word when each field does (R103). -/
theorem accepts_joinFields (r : OpcodeRow) (o a b z mo ma mb mz po pa pb pz : BitVec 8) (d md pd : Word)
    (hm : r.mask = joinFields mo ma mb mz md) (hp : r.pattern = joinFields po pa pb pz pd) :
    r.accepts (joinFields o a b z d) = true ↔
      o &&& mo = po ∧ a &&& ma = pa ∧ b &&& mb = pb ∧ z &&& mz = pz ∧ d &&& md = pd := by
  rw [OpcodeRow.accepts, hm, hp, joinFields_and, beq_iff_eq, joinFields_inj]

/-- A word that a row accepts carries the row's opcode: every mask covers the opcode field (R103). -/
theorem opcField_of_accepts (w : CmdWord) (r : OpcodeRow) (hr : r ∈ opcodeTable) (h : r.accepts w = true) :
    opcField w = opcField r.pattern := by
  have hm : ∀ r ∈ opcodeTable, opcField r.mask = 0xFF#8 := by decide
  simp only [OpcodeRow.accepts, beq_iff_eq] at h
  rw [← h]
  have : opcField (w &&& r.mask) = opcField w &&& opcField r.mask := by
    apply BitVec.eq_of_getLsbD_eq; intro i hi; simp [opcField, hi]
  rw [this, hm r hr]; exact (BitVec.and_allOnes (x := opcField w)).symm

/-- A word that decodes belongs to a row of the opcode map, and its operands are read from it (R103, R110). -/
theorem decodeAt_ok (p : Port) (w : CmdWord) (i : Instr) (h : decodeAt p w = .ok i) :
    ∃ r ∈ opcodeTable, r.accepts w = true ∧ i = operands r.name w ∧ i.port = p := by
  unfold decodeAt at h
  split at h
  · rename_i i' hd
    split at h
    · injection h with h; subst h
      unfold decodeWord at hd
      split at hd
      · rename_i r hr
        injection hd with hd
        exact ⟨r, List.mem_of_find?_eq_some hr, by simpa using List.find?_some hr, hd.symm, ‹_›⟩
      · cases hd
    · cases h
  · cases h

/-- A seven-bit operand leaves bit 7 of its byte clear. -/
@[simp] theorem setWidth7_and (x : BitVec 7) : x.setWidth 8 &&& 0x80#8 = 0#8 := by revert x; decide

/-- A flag leaves the other bits of its byte clear. -/
@[simp] theorem flagByte_and (f : Bool) : flagByte f &&& 0xFE#8 = 0#8 := by cases f <;> rfl

end Sys2Proof
end

