-- ==== Sys2Proof/Laws/State.lean ====
section
/-! SUPPORT. What each named operation leaves of each field of State, one lemma per field: no later proof unfolds a record update. -/

namespace Sys2Proof.Machine

/-- PREP as the composition of its six parts (R217). -/
theorem prep_eq (len : Nat) (s : State) :
    prep len s = prepPitch (prepVibrato len (prepLeslie len (prepEnvelope (prepEvents (prepSnapshot s))))) := (rfl)

/-- The state with a chunk opened, before PREP (R216). -/
def openChunk (s : State) : State :=
  { s with seq := { s.seq with left := min chunkSize s.seq.rem.toNat, live := s.inited } }

/-- A chunk start opens the chunk, then runs PREP or sets NOTINIT (R216). -/
theorem chunkStart_eq (s : State) :
    chunkStart s =
      if s.inited then prep (min chunkSize s.seq.rem.toNat) (openChunk s) else raise .notInit (openChunk s) := (rfl)

/-- A live chunk starts with PREP (R216). -/
theorem chunkStart_live (s : State) (h : s.inited = true) :
    chunkStart s = prep (min chunkSize s.seq.rem.toNat) (openChunk s) := by rw [chunkStart_eq, if_pos h]

/-- A silent chunk starts with NOTINIT (R216, R227). -/
theorem chunkStart_silent (s : State) (h : s.inited = false) : chunkStart s = raise .notInit (openChunk s) := by
  rw [chunkStart_eq, if_neg (by simp [h])]

section openChunk_fields

@[simp] theorem openChunk_cfg (s : State) : (openChunk s).cfg = s.cfg := (rfl)
@[simp] theorem openChunk_inited (s : State) : (openChunk s).inited = s.inited := (rfl)
@[simp] theorem openChunk_rendering (s : State) : (openChunk s).rendering = s.rendering := (rfl)
@[simp] theorem openChunk_sr (s : State) : (openChunk s).sr = s.sr := (rfl)
@[simp] theorem openChunk_initStat (s : State) : (openChunk s).initStat = s.initStat := (rfl)
@[simp] theorem openChunk_flags (s : State) : (openChunk s).flags = s.flags := (rfl)
@[simp] theorem openChunk_shadow (s : State) : (openChunk s).shadow = s.shadow := (rfl)
@[simp] theorem openChunk_active (s : State) : (openChunk s).active = s.active := (rfl)
@[simp] theorem openChunk_evq (s : State) : (openChunk s).evq = s.evq := (rfl)
@[simp] theorem openChunk_pool (s : State) : (openChunk s).pool = s.pool := (rfl)
@[simp] theorem openChunk_leslieCur (s : State) : (openChunk s).leslieCur = s.leslieCur := (rfl)
@[simp] theorem openChunk_rotorPhase (s : State) : (openChunk s).rotorPhase = s.rotorPhase := (rfl)
@[simp] theorem openChunk_vibPhase (s : State) : (openChunk s).vibPhase = s.vibPhase := (rfl)
@[simp] theorem openChunk_vibInc (s : State) : (openChunk s).vibInc = s.vibInc := (rfl)
@[simp] theorem openChunk_br (s : State) : (openChunk s).br = s.br := (rfl)
@[simp] theorem openChunk_resp (s : State) : (openChunk s).resp = s.resp := (rfl)
@[simp] theorem openChunk_out (s : State) : (openChunk s).out = s.out := (rfl)
@[simp] theorem openChunk_renderNo (s : State) : (openChunk s).renderNo = s.renderNo := (rfl)
@[simp] theorem openChunk_cIn (s : State) : (openChunk s).cIn = s.cIn := (rfl)
@[simp] theorem openChunk_rIn (s : State) : (openChunk s).rIn = s.rIn := (rfl)
@[simp] theorem openChunk_sched (s : State) : (openChunk s).sched = s.sched := (rfl)
@[simp] theorem openChunk_tick (s : State) : (openChunk s).tick = s.tick := (rfl)

end openChunk_fields

section raise_fields

@[simp] theorem raise_cfg (c : Cond) (s : State) : (raise c s).cfg = s.cfg := rfl
@[simp] theorem raise_inited (c : Cond) (s : State) : (raise c s).inited = s.inited := rfl
@[simp] theorem raise_rendering (c : Cond) (s : State) : (raise c s).rendering = s.rendering := rfl
@[simp] theorem raise_sr (c : Cond) (s : State) : (raise c s).sr = s.sr := rfl
@[simp] theorem raise_initStat (c : Cond) (s : State) : (raise c s).initStat = s.initStat := rfl
@[simp] theorem raise_shadow (c : Cond) (s : State) : (raise c s).shadow = s.shadow := rfl
@[simp] theorem raise_active (c : Cond) (s : State) : (raise c s).active = s.active := rfl
@[simp] theorem raise_evq (c : Cond) (s : State) : (raise c s).evq = s.evq := rfl
@[simp] theorem raise_pool (c : Cond) (s : State) : (raise c s).pool = s.pool := rfl
@[simp] theorem raise_leslieCur (c : Cond) (s : State) : (raise c s).leslieCur = s.leslieCur := rfl
@[simp] theorem raise_rotorPhase (c : Cond) (s : State) : (raise c s).rotorPhase = s.rotorPhase := rfl
@[simp] theorem raise_vibPhase (c : Cond) (s : State) : (raise c s).vibPhase = s.vibPhase := rfl
@[simp] theorem raise_vibInc (c : Cond) (s : State) : (raise c s).vibInc = s.vibInc := rfl
@[simp] theorem raise_br (c : Cond) (s : State) : (raise c s).br = s.br := rfl
@[simp] theorem raise_seq (c : Cond) (s : State) : (raise c s).seq = s.seq := rfl
@[simp] theorem raise_resp (c : Cond) (s : State) : (raise c s).resp = s.resp := rfl
@[simp] theorem raise_out (c : Cond) (s : State) : (raise c s).out = s.out := rfl
@[simp] theorem raise_renderNo (c : Cond) (s : State) : (raise c s).renderNo = s.renderNo := rfl
@[simp] theorem raise_cIn (c : Cond) (s : State) : (raise c s).cIn = s.cIn := rfl
@[simp] theorem raise_rIn (c : Cond) (s : State) : (raise c s).rIn = s.rIn := rfl
@[simp] theorem raise_sched (c : Cond) (s : State) : (raise c s).sched = s.sched := rfl
@[simp] theorem raise_tick (c : Cond) (s : State) : (raise c s).tick = s.tick := rfl
@[simp] theorem raise_flags (c : Cond) (s : State) : (raise c s).flags = s.flags.set c := rfl

end raise_fields

section respond_fields

@[simp] theorem respond_cfg (v : Word) (s : State) : (respond v s).cfg = s.cfg := rfl
@[simp] theorem respond_inited (v : Word) (s : State) : (respond v s).inited = s.inited := rfl
@[simp] theorem respond_rendering (v : Word) (s : State) : (respond v s).rendering = s.rendering := rfl
@[simp] theorem respond_sr (v : Word) (s : State) : (respond v s).sr = s.sr := rfl
@[simp] theorem respond_initStat (v : Word) (s : State) : (respond v s).initStat = s.initStat := rfl
@[simp] theorem respond_flags (v : Word) (s : State) : (respond v s).flags = s.flags := rfl
@[simp] theorem respond_shadow (v : Word) (s : State) : (respond v s).shadow = s.shadow := rfl
@[simp] theorem respond_active (v : Word) (s : State) : (respond v s).active = s.active := rfl
@[simp] theorem respond_evq (v : Word) (s : State) : (respond v s).evq = s.evq := rfl
@[simp] theorem respond_pool (v : Word) (s : State) : (respond v s).pool = s.pool := rfl
@[simp] theorem respond_leslieCur (v : Word) (s : State) : (respond v s).leslieCur = s.leslieCur := rfl
@[simp] theorem respond_rotorPhase (v : Word) (s : State) : (respond v s).rotorPhase = s.rotorPhase := rfl
@[simp] theorem respond_vibPhase (v : Word) (s : State) : (respond v s).vibPhase = s.vibPhase := rfl
@[simp] theorem respond_vibInc (v : Word) (s : State) : (respond v s).vibInc = s.vibInc := rfl
@[simp] theorem respond_br (v : Word) (s : State) : (respond v s).br = s.br := rfl
@[simp] theorem respond_seq (v : Word) (s : State) : (respond v s).seq = s.seq := rfl
@[simp] theorem respond_out (v : Word) (s : State) : (respond v s).out = s.out := rfl
@[simp] theorem respond_renderNo (v : Word) (s : State) : (respond v s).renderNo = s.renderNo := rfl
@[simp] theorem respond_cIn (v : Word) (s : State) : (respond v s).cIn = s.cIn := rfl
@[simp] theorem respond_rIn (v : Word) (s : State) : (respond v s).rIn = s.rIn := rfl
@[simp] theorem respond_sched (v : Word) (s : State) : (respond v s).sched = s.sched := rfl
@[simp] theorem respond_tick (v : Word) (s : State) : (respond v s).tick = s.tick := rfl
@[simp] theorem respond_resp (v : Word) (s : State) : (respond v s).resp = s.resp ++ [v] := rfl

end respond_fields

section evqPush_fields

@[simp] theorem evqPush_cfg (e : Event) (s : State) : (evqPush e s).cfg = s.cfg := by unfold evqPush; split <;> rfl
@[simp] theorem evqPush_inited (e : Event) (s : State) : (evqPush e s).inited = s.inited := by unfold evqPush; split <;> rfl
@[simp] theorem evqPush_rendering (e : Event) (s : State) : (evqPush e s).rendering = s.rendering := by unfold evqPush; split <;> rfl
@[simp] theorem evqPush_sr (e : Event) (s : State) : (evqPush e s).sr = s.sr := by unfold evqPush; split <;> rfl
@[simp] theorem evqPush_initStat (e : Event) (s : State) : (evqPush e s).initStat = s.initStat := by unfold evqPush; split <;> rfl
@[simp] theorem evqPush_shadow (e : Event) (s : State) : (evqPush e s).shadow = s.shadow := by unfold evqPush; split <;> rfl
@[simp] theorem evqPush_active (e : Event) (s : State) : (evqPush e s).active = s.active := by unfold evqPush; split <;> rfl
@[simp] theorem evqPush_pool (e : Event) (s : State) : (evqPush e s).pool = s.pool := by unfold evqPush; split <;> rfl
@[simp] theorem evqPush_leslieCur (e : Event) (s : State) : (evqPush e s).leslieCur = s.leslieCur := by unfold evqPush; split <;> rfl
@[simp] theorem evqPush_rotorPhase (e : Event) (s : State) : (evqPush e s).rotorPhase = s.rotorPhase := by unfold evqPush; split <;> rfl
@[simp] theorem evqPush_vibPhase (e : Event) (s : State) : (evqPush e s).vibPhase = s.vibPhase := by unfold evqPush; split <;> rfl
@[simp] theorem evqPush_vibInc (e : Event) (s : State) : (evqPush e s).vibInc = s.vibInc := by unfold evqPush; split <;> rfl
@[simp] theorem evqPush_br (e : Event) (s : State) : (evqPush e s).br = s.br := by unfold evqPush; split <;> rfl
@[simp] theorem evqPush_seq (e : Event) (s : State) : (evqPush e s).seq = s.seq := by unfold evqPush; split <;> rfl
@[simp] theorem evqPush_resp (e : Event) (s : State) : (evqPush e s).resp = s.resp := by unfold evqPush; split <;> rfl
@[simp] theorem evqPush_out (e : Event) (s : State) : (evqPush e s).out = s.out := by unfold evqPush; split <;> rfl
@[simp] theorem evqPush_renderNo (e : Event) (s : State) : (evqPush e s).renderNo = s.renderNo := by unfold evqPush; split <;> rfl
@[simp] theorem evqPush_cIn (e : Event) (s : State) : (evqPush e s).cIn = s.cIn := by unfold evqPush; split <;> rfl
@[simp] theorem evqPush_rIn (e : Event) (s : State) : (evqPush e s).rIn = s.rIn := by unfold evqPush; split <;> rfl
@[simp] theorem evqPush_sched (e : Event) (s : State) : (evqPush e s).sched = s.sched := by unfold evqPush; split <;> rfl
@[simp] theorem evqPush_tick (e : Event) (s : State) : (evqPush e s).tick = s.tick := by unfold evqPush; split <;> rfl

end evqPush_fields

section storeShadow_fields

@[simp] theorem storeShadow_cfg (b : Option Bank) (s : State) : (storeShadow b s).cfg = s.cfg := by cases b <;> rfl
@[simp] theorem storeShadow_inited (b : Option Bank) (s : State) : (storeShadow b s).inited = s.inited := by cases b <;> rfl
@[simp] theorem storeShadow_rendering (b : Option Bank) (s : State) : (storeShadow b s).rendering = s.rendering := by cases b <;> rfl
@[simp] theorem storeShadow_sr (b : Option Bank) (s : State) : (storeShadow b s).sr = s.sr := by cases b <;> rfl
@[simp] theorem storeShadow_initStat (b : Option Bank) (s : State) : (storeShadow b s).initStat = s.initStat := by cases b <;> rfl
@[simp] theorem storeShadow_active (b : Option Bank) (s : State) : (storeShadow b s).active = s.active := by cases b <;> rfl
@[simp] theorem storeShadow_evq (b : Option Bank) (s : State) : (storeShadow b s).evq = s.evq := by cases b <;> rfl
@[simp] theorem storeShadow_pool (b : Option Bank) (s : State) : (storeShadow b s).pool = s.pool := by cases b <;> rfl
@[simp] theorem storeShadow_leslieCur (b : Option Bank) (s : State) : (storeShadow b s).leslieCur = s.leslieCur := by cases b <;> rfl
@[simp] theorem storeShadow_rotorPhase (b : Option Bank) (s : State) : (storeShadow b s).rotorPhase = s.rotorPhase := by cases b <;> rfl
@[simp] theorem storeShadow_vibPhase (b : Option Bank) (s : State) : (storeShadow b s).vibPhase = s.vibPhase := by cases b <;> rfl
@[simp] theorem storeShadow_vibInc (b : Option Bank) (s : State) : (storeShadow b s).vibInc = s.vibInc := by cases b <;> rfl
@[simp] theorem storeShadow_br (b : Option Bank) (s : State) : (storeShadow b s).br = s.br := by cases b <;> rfl
@[simp] theorem storeShadow_seq (b : Option Bank) (s : State) : (storeShadow b s).seq = s.seq := by cases b <;> rfl
@[simp] theorem storeShadow_resp (b : Option Bank) (s : State) : (storeShadow b s).resp = s.resp := by cases b <;> rfl
@[simp] theorem storeShadow_out (b : Option Bank) (s : State) : (storeShadow b s).out = s.out := by cases b <;> rfl
@[simp] theorem storeShadow_renderNo (b : Option Bank) (s : State) : (storeShadow b s).renderNo = s.renderNo := by cases b <;> rfl
@[simp] theorem storeShadow_cIn (b : Option Bank) (s : State) : (storeShadow b s).cIn = s.cIn := by cases b <;> rfl
@[simp] theorem storeShadow_rIn (b : Option Bank) (s : State) : (storeShadow b s).rIn = s.rIn := by cases b <;> rfl
@[simp] theorem storeShadow_sched (b : Option Bank) (s : State) : (storeShadow b s).sched = s.sched := by cases b <;> rfl
@[simp] theorem storeShadow_tick (b : Option Bank) (s : State) : (storeShadow b s).tick = s.tick := by cases b <;> rfl

end storeShadow_fields

section answer_fields

@[simp] theorem answer_cfg (v : Option Word) (s : State) : (answer v s).cfg = s.cfg := by cases v <;> rfl
@[simp] theorem answer_inited (v : Option Word) (s : State) : (answer v s).inited = s.inited := by cases v <;> rfl
@[simp] theorem answer_rendering (v : Option Word) (s : State) : (answer v s).rendering = s.rendering := by cases v <;> rfl
@[simp] theorem answer_sr (v : Option Word) (s : State) : (answer v s).sr = s.sr := by cases v <;> rfl
@[simp] theorem answer_initStat (v : Option Word) (s : State) : (answer v s).initStat = s.initStat := by cases v <;> rfl
@[simp] theorem answer_shadow (v : Option Word) (s : State) : (answer v s).shadow = s.shadow := by cases v <;> rfl
@[simp] theorem answer_active (v : Option Word) (s : State) : (answer v s).active = s.active := by cases v <;> rfl
@[simp] theorem answer_evq (v : Option Word) (s : State) : (answer v s).evq = s.evq := by cases v <;> rfl
@[simp] theorem answer_pool (v : Option Word) (s : State) : (answer v s).pool = s.pool := by cases v <;> rfl
@[simp] theorem answer_leslieCur (v : Option Word) (s : State) : (answer v s).leslieCur = s.leslieCur := by cases v <;> rfl
@[simp] theorem answer_rotorPhase (v : Option Word) (s : State) : (answer v s).rotorPhase = s.rotorPhase := by cases v <;> rfl
@[simp] theorem answer_vibPhase (v : Option Word) (s : State) : (answer v s).vibPhase = s.vibPhase := by cases v <;> rfl
@[simp] theorem answer_vibInc (v : Option Word) (s : State) : (answer v s).vibInc = s.vibInc := by cases v <;> rfl
@[simp] theorem answer_br (v : Option Word) (s : State) : (answer v s).br = s.br := by cases v <;> rfl
@[simp] theorem answer_seq (v : Option Word) (s : State) : (answer v s).seq = s.seq := by cases v <;> rfl
@[simp] theorem answer_out (v : Option Word) (s : State) : (answer v s).out = s.out := by cases v <;> rfl
@[simp] theorem answer_renderNo (v : Option Word) (s : State) : (answer v s).renderNo = s.renderNo := by cases v <;> rfl
@[simp] theorem answer_cIn (v : Option Word) (s : State) : (answer v s).cIn = s.cIn := by cases v <;> rfl
@[simp] theorem answer_rIn (v : Option Word) (s : State) : (answer v s).rIn = s.rIn := by cases v <;> rfl
@[simp] theorem answer_sched (v : Option Word) (s : State) : (answer v s).sched = s.sched := by cases v <;> rfl
@[simp] theorem answer_tick (v : Option Word) (s : State) : (answer v s).tick = s.tick := by cases v <;> rfl

end answer_fields

section hardReset_fields

@[simp] theorem hardReset_cfg (s : State) : (hardReset s).cfg = s.cfg := rfl
@[simp] theorem hardReset_resp (s : State) : (hardReset s).resp = s.resp := rfl
@[simp] theorem hardReset_out (s : State) : (hardReset s).out = s.out := rfl
@[simp] theorem hardReset_renderNo (s : State) : (hardReset s).renderNo = s.renderNo := rfl
@[simp] theorem hardReset_cIn (s : State) : (hardReset s).cIn = s.cIn := rfl
@[simp] theorem hardReset_rIn (s : State) : (hardReset s).rIn = s.rIn := rfl
@[simp] theorem hardReset_sched (s : State) : (hardReset s).sched = s.sched := rfl
@[simp] theorem hardReset_tick (s : State) : (hardReset s).tick = s.tick := rfl
@[simp] theorem hardReset_inited (s : State) : (hardReset s).inited = false := rfl
@[simp] theorem hardReset_rendering (s : State) : (hardReset s).rendering = false := rfl
@[simp] theorem hardReset_flags (s : State) : (hardReset s).flags = Flags.none := rfl
@[simp] theorem hardReset_sr (s : State) : (hardReset s).sr = 0 := rfl
@[simp] theorem hardReset_initStat (s : State) : (hardReset s).initStat = 0 := rfl
@[simp] theorem hardReset_evq (s : State) : (hardReset s).evq = [] := rfl
@[simp] theorem hardReset_seq (s : State) : (hardReset s).seq = Sequencer.reset := rfl
@[simp] theorem hardReset_pool (s : State) : (hardReset s).pool = Pool.reset s.cfg.nv := rfl

end hardReset_fields

section initEngine_fields

@[simp] theorem initEngine_cfg (sr : Word) (s : State) : (initEngine sr s).cfg = s.cfg := rfl
@[simp] theorem initEngine_resp (sr : Word) (s : State) : (initEngine sr s).resp = s.resp := rfl
@[simp] theorem initEngine_out (sr : Word) (s : State) : (initEngine sr s).out = s.out := rfl
@[simp] theorem initEngine_renderNo (sr : Word) (s : State) : (initEngine sr s).renderNo = s.renderNo := rfl
@[simp] theorem initEngine_cIn (sr : Word) (s : State) : (initEngine sr s).cIn = s.cIn := rfl
@[simp] theorem initEngine_rIn (sr : Word) (s : State) : (initEngine sr s).rIn = s.rIn := rfl
@[simp] theorem initEngine_sched (sr : Word) (s : State) : (initEngine sr s).sched = s.sched := rfl
@[simp] theorem initEngine_tick (sr : Word) (s : State) : (initEngine sr s).tick = s.tick := rfl
@[simp] theorem initEngine_inited (sr : Word) (s : State) : (initEngine sr s).inited = true := rfl
@[simp] theorem initEngine_rendering (sr : Word) (s : State) : (initEngine sr s).rendering = false := rfl
@[simp] theorem initEngine_sr (sr : Word) (s : State) : (initEngine sr s).sr = sr := rfl
@[simp] theorem initEngine_flags (sr : Word) (s : State) : (initEngine sr s).flags = s.flags := rfl
@[simp] theorem initEngine_evq (sr : Word) (s : State) : (initEngine sr s).evq = [] := rfl
@[simp] theorem initEngine_pool (sr : Word) (s : State) : (initEngine sr s).pool = Pool.reset s.cfg.nv := rfl

end initEngine_fields

section prepSnapshot_fields

@[simp] theorem prepSnapshot_cfg (s : State) : (prepSnapshot s).cfg = s.cfg := (rfl)
@[simp] theorem prepSnapshot_inited (s : State) : (prepSnapshot s).inited = s.inited := (rfl)
@[simp] theorem prepSnapshot_rendering (s : State) : (prepSnapshot s).rendering = s.rendering := (rfl)
@[simp] theorem prepSnapshot_sr (s : State) : (prepSnapshot s).sr = s.sr := (rfl)
@[simp] theorem prepSnapshot_initStat (s : State) : (prepSnapshot s).initStat = s.initStat := (rfl)
@[simp] theorem prepSnapshot_flags (s : State) : (prepSnapshot s).flags = s.flags := (rfl)
@[simp] theorem prepSnapshot_shadow (s : State) : (prepSnapshot s).shadow = s.shadow := (rfl)
@[simp] theorem prepSnapshot_evq (s : State) : (prepSnapshot s).evq = s.evq := (rfl)
@[simp] theorem prepSnapshot_pool (s : State) : (prepSnapshot s).pool = s.pool := (rfl)
@[simp] theorem prepSnapshot_leslieCur (s : State) : (prepSnapshot s).leslieCur = s.leslieCur := (rfl)
@[simp] theorem prepSnapshot_rotorPhase (s : State) : (prepSnapshot s).rotorPhase = s.rotorPhase := (rfl)
@[simp] theorem prepSnapshot_vibPhase (s : State) : (prepSnapshot s).vibPhase = s.vibPhase := (rfl)
@[simp] theorem prepSnapshot_vibInc (s : State) : (prepSnapshot s).vibInc = s.vibInc := (rfl)
@[simp] theorem prepSnapshot_br (s : State) : (prepSnapshot s).br = s.br := (rfl)
@[simp] theorem prepSnapshot_seq (s : State) : (prepSnapshot s).seq = s.seq := (rfl)
@[simp] theorem prepSnapshot_resp (s : State) : (prepSnapshot s).resp = s.resp := (rfl)
@[simp] theorem prepSnapshot_out (s : State) : (prepSnapshot s).out = s.out := (rfl)
@[simp] theorem prepSnapshot_renderNo (s : State) : (prepSnapshot s).renderNo = s.renderNo := (rfl)
@[simp] theorem prepSnapshot_cIn (s : State) : (prepSnapshot s).cIn = s.cIn := (rfl)
@[simp] theorem prepSnapshot_rIn (s : State) : (prepSnapshot s).rIn = s.rIn := (rfl)
@[simp] theorem prepSnapshot_sched (s : State) : (prepSnapshot s).sched = s.sched := (rfl)
@[simp] theorem prepSnapshot_tick (s : State) : (prepSnapshot s).tick = s.tick := (rfl)
@[simp] theorem prepSnapshot_active (s : State) : (prepSnapshot s).active = s.shadow := (rfl)

end prepSnapshot_fields

section prepEvents_fields

@[simp] theorem prepEvents_cfg (s : State) : (prepEvents s).cfg = s.cfg := (rfl)
@[simp] theorem prepEvents_inited (s : State) : (prepEvents s).inited = s.inited := (rfl)
@[simp] theorem prepEvents_rendering (s : State) : (prepEvents s).rendering = s.rendering := (rfl)
@[simp] theorem prepEvents_sr (s : State) : (prepEvents s).sr = s.sr := (rfl)
@[simp] theorem prepEvents_initStat (s : State) : (prepEvents s).initStat = s.initStat := (rfl)
@[simp] theorem prepEvents_flags (s : State) : (prepEvents s).flags = s.flags := (rfl)
@[simp] theorem prepEvents_shadow (s : State) : (prepEvents s).shadow = s.shadow := (rfl)
@[simp] theorem prepEvents_active (s : State) : (prepEvents s).active = s.active := (rfl)
@[simp] theorem prepEvents_leslieCur (s : State) : (prepEvents s).leslieCur = s.leslieCur := (rfl)
@[simp] theorem prepEvents_rotorPhase (s : State) : (prepEvents s).rotorPhase = s.rotorPhase := (rfl)
@[simp] theorem prepEvents_vibPhase (s : State) : (prepEvents s).vibPhase = s.vibPhase := (rfl)
@[simp] theorem prepEvents_vibInc (s : State) : (prepEvents s).vibInc = s.vibInc := (rfl)
@[simp] theorem prepEvents_br (s : State) : (prepEvents s).br = s.br := (rfl)
@[simp] theorem prepEvents_seq (s : State) : (prepEvents s).seq = s.seq := (rfl)
@[simp] theorem prepEvents_resp (s : State) : (prepEvents s).resp = s.resp := (rfl)
@[simp] theorem prepEvents_out (s : State) : (prepEvents s).out = s.out := (rfl)
@[simp] theorem prepEvents_renderNo (s : State) : (prepEvents s).renderNo = s.renderNo := (rfl)
@[simp] theorem prepEvents_cIn (s : State) : (prepEvents s).cIn = s.cIn := (rfl)
@[simp] theorem prepEvents_rIn (s : State) : (prepEvents s).rIn = s.rIn := (rfl)
@[simp] theorem prepEvents_sched (s : State) : (prepEvents s).sched = s.sched := (rfl)
@[simp] theorem prepEvents_tick (s : State) : (prepEvents s).tick = s.tick := (rfl)
@[simp] theorem prepEvents_evq (s : State) : (prepEvents s).evq = [] := (rfl)
@[simp] theorem prepEvents_pool (s : State) : (prepEvents s).pool = applyEvents s.active s.sr s.evq s.pool := (rfl)

end prepEvents_fields

section prepEnvelope_fields

@[simp] theorem prepEnvelope_cfg (s : State) : (prepEnvelope s).cfg = s.cfg := (rfl)
@[simp] theorem prepEnvelope_inited (s : State) : (prepEnvelope s).inited = s.inited := (rfl)
@[simp] theorem prepEnvelope_rendering (s : State) : (prepEnvelope s).rendering = s.rendering := (rfl)
@[simp] theorem prepEnvelope_sr (s : State) : (prepEnvelope s).sr = s.sr := (rfl)
@[simp] theorem prepEnvelope_initStat (s : State) : (prepEnvelope s).initStat = s.initStat := (rfl)
@[simp] theorem prepEnvelope_flags (s : State) : (prepEnvelope s).flags = s.flags := (rfl)
@[simp] theorem prepEnvelope_shadow (s : State) : (prepEnvelope s).shadow = s.shadow := (rfl)
@[simp] theorem prepEnvelope_active (s : State) : (prepEnvelope s).active = s.active := (rfl)
@[simp] theorem prepEnvelope_evq (s : State) : (prepEnvelope s).evq = s.evq := (rfl)
@[simp] theorem prepEnvelope_leslieCur (s : State) : (prepEnvelope s).leslieCur = s.leslieCur := (rfl)
@[simp] theorem prepEnvelope_rotorPhase (s : State) : (prepEnvelope s).rotorPhase = s.rotorPhase := (rfl)
@[simp] theorem prepEnvelope_vibPhase (s : State) : (prepEnvelope s).vibPhase = s.vibPhase := (rfl)
@[simp] theorem prepEnvelope_vibInc (s : State) : (prepEnvelope s).vibInc = s.vibInc := (rfl)
@[simp] theorem prepEnvelope_seq (s : State) : (prepEnvelope s).seq = s.seq := (rfl)
@[simp] theorem prepEnvelope_resp (s : State) : (prepEnvelope s).resp = s.resp := (rfl)
@[simp] theorem prepEnvelope_out (s : State) : (prepEnvelope s).out = s.out := (rfl)
@[simp] theorem prepEnvelope_renderNo (s : State) : (prepEnvelope s).renderNo = s.renderNo := (rfl)
@[simp] theorem prepEnvelope_cIn (s : State) : (prepEnvelope s).cIn = s.cIn := (rfl)
@[simp] theorem prepEnvelope_rIn (s : State) : (prepEnvelope s).rIn = s.rIn := (rfl)
@[simp] theorem prepEnvelope_sched (s : State) : (prepEnvelope s).sched = s.sched := (rfl)
@[simp] theorem prepEnvelope_tick (s : State) : (prepEnvelope s).tick = s.tick := (rfl)
@[simp] theorem prepEnvelope_br (s : State) : (prepEnvelope s).br = envelopeConstants s.active s.sr s.br := (rfl)
@[simp] theorem prepEnvelope_pool (s : State) : (prepEnvelope s).pool = { s.pool with voices := s.pool.voices.map (stageTransition (envelopeConstants s.active s.sr s.br)) } := (rfl)

end prepEnvelope_fields

section prepLeslie_fields

@[simp] theorem prepLeslie_cfg (len : Nat) (s : State) : (prepLeslie len s).cfg = s.cfg := by rw [prepLeslie]
@[simp] theorem prepLeslie_inited (len : Nat) (s : State) : (prepLeslie len s).inited = s.inited := by rw [prepLeslie]
@[simp] theorem prepLeslie_rendering (len : Nat) (s : State) : (prepLeslie len s).rendering = s.rendering := by rw [prepLeslie]
@[simp] theorem prepLeslie_sr (len : Nat) (s : State) : (prepLeslie len s).sr = s.sr := by rw [prepLeslie]
@[simp] theorem prepLeslie_initStat (len : Nat) (s : State) : (prepLeslie len s).initStat = s.initStat := by rw [prepLeslie]
@[simp] theorem prepLeslie_flags (len : Nat) (s : State) : (prepLeslie len s).flags = s.flags := by rw [prepLeslie]
@[simp] theorem prepLeslie_shadow (len : Nat) (s : State) : (prepLeslie len s).shadow = s.shadow := by rw [prepLeslie]
@[simp] theorem prepLeslie_active (len : Nat) (s : State) : (prepLeslie len s).active = s.active := by rw [prepLeslie]
@[simp] theorem prepLeslie_evq (len : Nat) (s : State) : (prepLeslie len s).evq = s.evq := by rw [prepLeslie]
@[simp] theorem prepLeslie_pool (len : Nat) (s : State) : (prepLeslie len s).pool = s.pool := by rw [prepLeslie]
@[simp] theorem prepLeslie_rotorPhase (len : Nat) (s : State) : (prepLeslie len s).rotorPhase = s.rotorPhase := by rw [prepLeslie]
@[simp] theorem prepLeslie_vibPhase (len : Nat) (s : State) : (prepLeslie len s).vibPhase = s.vibPhase := by rw [prepLeslie]
@[simp] theorem prepLeslie_vibInc (len : Nat) (s : State) : (prepLeslie len s).vibInc = s.vibInc := by rw [prepLeslie]
@[simp] theorem prepLeslie_seq (len : Nat) (s : State) : (prepLeslie len s).seq = s.seq := by rw [prepLeslie]
@[simp] theorem prepLeslie_resp (len : Nat) (s : State) : (prepLeslie len s).resp = s.resp := by rw [prepLeslie]
@[simp] theorem prepLeslie_out (len : Nat) (s : State) : (prepLeslie len s).out = s.out := by rw [prepLeslie]
@[simp] theorem prepLeslie_renderNo (len : Nat) (s : State) : (prepLeslie len s).renderNo = s.renderNo := by rw [prepLeslie]
@[simp] theorem prepLeslie_cIn (len : Nat) (s : State) : (prepLeslie len s).cIn = s.cIn := by rw [prepLeslie]
@[simp] theorem prepLeslie_rIn (len : Nat) (s : State) : (prepLeslie len s).rIn = s.rIn := by rw [prepLeslie]
@[simp] theorem prepLeslie_sched (len : Nat) (s : State) : (prepLeslie len s).sched = s.sched := by rw [prepLeslie]
@[simp] theorem prepLeslie_tick (len : Nat) (s : State) : (prepLeslie len s).tick = s.tick := by rw [prepLeslie]
@[simp] theorem prepLeslie_leslieCur (len : Nat) (s : State) : (prepLeslie len s).leslieCur = BitVec.ofNat 32 (leslieRamp s.leslieCur.toNat (leslieTarget s.active) (leslieStep s.cfg s.sr len)) := by rw [prepLeslie]
@[simp] theorem prepLeslie_br (len : Nat) (s : State) : (prepLeslie len s).br = { s.br with rotorInc := rotorIncrement s.cfg s.sr (BitVec.ofNat 32 (leslieRamp s.leslieCur.toNat (leslieTarget s.active) (leslieStep s.cfg s.sr len))) } := by rw [prepLeslie]

end prepLeslie_fields

section prepVibrato_fields

@[simp] theorem prepVibrato_cfg (len : Nat) (s : State) : (prepVibrato len s).cfg = s.cfg := (rfl)
@[simp] theorem prepVibrato_inited (len : Nat) (s : State) : (prepVibrato len s).inited = s.inited := (rfl)
@[simp] theorem prepVibrato_rendering (len : Nat) (s : State) : (prepVibrato len s).rendering = s.rendering := (rfl)
@[simp] theorem prepVibrato_sr (len : Nat) (s : State) : (prepVibrato len s).sr = s.sr := (rfl)
@[simp] theorem prepVibrato_initStat (len : Nat) (s : State) : (prepVibrato len s).initStat = s.initStat := (rfl)
@[simp] theorem prepVibrato_flags (len : Nat) (s : State) : (prepVibrato len s).flags = s.flags := (rfl)
@[simp] theorem prepVibrato_shadow (len : Nat) (s : State) : (prepVibrato len s).shadow = s.shadow := (rfl)
@[simp] theorem prepVibrato_active (len : Nat) (s : State) : (prepVibrato len s).active = s.active := (rfl)
@[simp] theorem prepVibrato_evq (len : Nat) (s : State) : (prepVibrato len s).evq = s.evq := (rfl)
@[simp] theorem prepVibrato_pool (len : Nat) (s : State) : (prepVibrato len s).pool = s.pool := (rfl)
@[simp] theorem prepVibrato_leslieCur (len : Nat) (s : State) : (prepVibrato len s).leslieCur = s.leslieCur := (rfl)
@[simp] theorem prepVibrato_rotorPhase (len : Nat) (s : State) : (prepVibrato len s).rotorPhase = s.rotorPhase := (rfl)
@[simp] theorem prepVibrato_vibInc (len : Nat) (s : State) : (prepVibrato len s).vibInc = s.vibInc := (rfl)
@[simp] theorem prepVibrato_seq (len : Nat) (s : State) : (prepVibrato len s).seq = s.seq := (rfl)
@[simp] theorem prepVibrato_resp (len : Nat) (s : State) : (prepVibrato len s).resp = s.resp := (rfl)
@[simp] theorem prepVibrato_out (len : Nat) (s : State) : (prepVibrato len s).out = s.out := (rfl)
@[simp] theorem prepVibrato_renderNo (len : Nat) (s : State) : (prepVibrato len s).renderNo = s.renderNo := (rfl)
@[simp] theorem prepVibrato_cIn (len : Nat) (s : State) : (prepVibrato len s).cIn = s.cIn := (rfl)
@[simp] theorem prepVibrato_rIn (len : Nat) (s : State) : (prepVibrato len s).rIn = s.rIn := (rfl)
@[simp] theorem prepVibrato_sched (len : Nat) (s : State) : (prepVibrato len s).sched = s.sched := (rfl)
@[simp] theorem prepVibrato_tick (len : Nat) (s : State) : (prepVibrato len s).tick = s.tick := (rfl)
@[simp] theorem prepVibrato_br (len : Nat) (s : State) : (prepVibrato len s).br = { s.br with vib := vibratoFactor s.cfg s.active s.vibPhase } := (rfl)
@[simp] theorem prepVibrato_vibPhase (len : Nat) (s : State) : (prepVibrato len s).vibPhase = BitVec.ofNat 32 (s.vibPhase.toNat + len * s.vibInc.toNat) := (rfl)

end prepVibrato_fields

section prepPitch_fields

@[simp] theorem prepPitch_cfg (s : State) : (prepPitch s).cfg = s.cfg := (rfl)
@[simp] theorem prepPitch_inited (s : State) : (prepPitch s).inited = s.inited := (rfl)
@[simp] theorem prepPitch_rendering (s : State) : (prepPitch s).rendering = s.rendering := (rfl)
@[simp] theorem prepPitch_sr (s : State) : (prepPitch s).sr = s.sr := (rfl)
@[simp] theorem prepPitch_initStat (s : State) : (prepPitch s).initStat = s.initStat := (rfl)
@[simp] theorem prepPitch_flags (s : State) : (prepPitch s).flags = s.flags := (rfl)
@[simp] theorem prepPitch_shadow (s : State) : (prepPitch s).shadow = s.shadow := (rfl)
@[simp] theorem prepPitch_active (s : State) : (prepPitch s).active = s.active := (rfl)
@[simp] theorem prepPitch_evq (s : State) : (prepPitch s).evq = s.evq := (rfl)
@[simp] theorem prepPitch_pool (s : State) : (prepPitch s).pool = s.pool := (rfl)
@[simp] theorem prepPitch_leslieCur (s : State) : (prepPitch s).leslieCur = s.leslieCur := (rfl)
@[simp] theorem prepPitch_rotorPhase (s : State) : (prepPitch s).rotorPhase = s.rotorPhase := (rfl)
@[simp] theorem prepPitch_vibPhase (s : State) : (prepPitch s).vibPhase = s.vibPhase := (rfl)
@[simp] theorem prepPitch_vibInc (s : State) : (prepPitch s).vibInc = s.vibInc := (rfl)
@[simp] theorem prepPitch_seq (s : State) : (prepPitch s).seq = s.seq := (rfl)
@[simp] theorem prepPitch_resp (s : State) : (prepPitch s).resp = s.resp := (rfl)
@[simp] theorem prepPitch_out (s : State) : (prepPitch s).out = s.out := (rfl)
@[simp] theorem prepPitch_renderNo (s : State) : (prepPitch s).renderNo = s.renderNo := (rfl)
@[simp] theorem prepPitch_cIn (s : State) : (prepPitch s).cIn = s.cIn := (rfl)
@[simp] theorem prepPitch_rIn (s : State) : (prepPitch s).rIn = s.rIn := (rfl)
@[simp] theorem prepPitch_sched (s : State) : (prepPitch s).sched = s.sched := (rfl)
@[simp] theorem prepPitch_tick (s : State) : (prepPitch s).tick = s.tick := (rfl)
@[simp] theorem prepPitch_br (s : State) : (prepPitch s).br = { s.br with g := globalFactor s.active s.br.vib, incHalf := s.pool.voices.map fun v => baseIncrement s.sr v.freq (globalFactor s.active s.br.vib) } := (rfl)

end prepPitch_fields

section prep_fields

@[simp] theorem prep_cfg (len : Nat) (s : State) : (prep len s).cfg = s.cfg := by simp [prep_eq]
@[simp] theorem prep_inited (len : Nat) (s : State) : (prep len s).inited = s.inited := by simp [prep_eq]
@[simp] theorem prep_rendering (len : Nat) (s : State) : (prep len s).rendering = s.rendering := by simp [prep_eq]
@[simp] theorem prep_sr (len : Nat) (s : State) : (prep len s).sr = s.sr := by simp [prep_eq]
@[simp] theorem prep_initStat (len : Nat) (s : State) : (prep len s).initStat = s.initStat := by simp [prep_eq]
@[simp] theorem prep_flags (len : Nat) (s : State) : (prep len s).flags = s.flags := by simp [prep_eq]
@[simp] theorem prep_shadow (len : Nat) (s : State) : (prep len s).shadow = s.shadow := by simp [prep_eq]
@[simp] theorem prep_rotorPhase (len : Nat) (s : State) : (prep len s).rotorPhase = s.rotorPhase := by simp [prep_eq]
@[simp] theorem prep_vibInc (len : Nat) (s : State) : (prep len s).vibInc = s.vibInc := by simp [prep_eq]
@[simp] theorem prep_seq (len : Nat) (s : State) : (prep len s).seq = s.seq := by simp [prep_eq]
@[simp] theorem prep_resp (len : Nat) (s : State) : (prep len s).resp = s.resp := by simp [prep_eq]
@[simp] theorem prep_out (len : Nat) (s : State) : (prep len s).out = s.out := by simp [prep_eq]
@[simp] theorem prep_renderNo (len : Nat) (s : State) : (prep len s).renderNo = s.renderNo := by simp [prep_eq]
@[simp] theorem prep_cIn (len : Nat) (s : State) : (prep len s).cIn = s.cIn := by simp [prep_eq]
@[simp] theorem prep_rIn (len : Nat) (s : State) : (prep len s).rIn = s.rIn := by simp [prep_eq]
@[simp] theorem prep_sched (len : Nat) (s : State) : (prep len s).sched = s.sched := by simp [prep_eq]
@[simp] theorem prep_tick (len : Nat) (s : State) : (prep len s).tick = s.tick := by simp [prep_eq]
@[simp] theorem prep_active (len : Nat) (s : State) : (prep len s).active = s.shadow := by simp [prep_eq]
@[simp] theorem prep_evq (len : Nat) (s : State) : (prep len s).evq = [] := by simp [prep_eq]

end prep_fields

/-- The voice pool after PREP: the queued events applied, then the stage transitions (R172, R219). -/
@[simp] theorem prep_pool (len : Nat) (s : State) :
    (prep len s).pool =
      { applyEvents s.shadow s.sr s.evq s.pool with
        voices := (applyEvents s.shadow s.sr s.evq s.pool).voices.map
          (stageTransition (envelopeConstants s.shadow s.sr s.br)) } := by
  simp [prep_eq]

/-- The rotor speed after PREP (R202). -/
@[simp] theorem prep_leslieCur (len : Nat) (s : State) :
    (prep len s).leslieCur =
      BitVec.ofNat 32 (leslieRamp s.leslieCur.toNat (leslieTarget s.shadow) (leslieStep s.cfg s.sr len)) := by
  simp [prep_eq]

/-- The vibrato phase after PREP (R152). -/
@[simp] theorem prep_vibPhase (len : Nat) (s : State) :
    (prep len s).vibPhase = BitVec.ofNat 32 (s.vibPhase.toNat + len * s.vibInc.toNat) := by
  simp [prep_eq]

/-- The block-rate registers after PREP (R151, R152, R153, R171, R203). -/
theorem prep_br (len : Nat) (s : State) :
    (prep len s).br =
      { envelopeConstants s.shadow s.sr s.br with
        rotorInc := rotorIncrement s.cfg s.sr (prep len s).leslieCur
        vib := vibratoFactor s.cfg s.shadow s.vibPhase
        g := globalFactor s.shadow (vibratoFactor s.cfg s.shadow s.vibPhase)
        incHalf := (prep len s).pool.voices.map fun v =>
          baseIncrement s.sr v.freq (globalFactor s.shadow (vibratoFactor s.cfg s.shadow s.vibPhase)) } := by
  simp [prep_eq]

section chunkStart_fields

@[simp] theorem chunkStart_cfg (s : State) : (chunkStart s).cfg = s.cfg := by rw [chunkStart_eq]; split <;> simp
@[simp] theorem chunkStart_inited (s : State) : (chunkStart s).inited = s.inited := by rw [chunkStart_eq]; split <;> simp
@[simp] theorem chunkStart_rendering (s : State) : (chunkStart s).rendering = s.rendering := by rw [chunkStart_eq]; split <;> simp
@[simp] theorem chunkStart_sr (s : State) : (chunkStart s).sr = s.sr := by rw [chunkStart_eq]; split <;> simp
@[simp] theorem chunkStart_initStat (s : State) : (chunkStart s).initStat = s.initStat := by rw [chunkStart_eq]; split <;> simp
@[simp] theorem chunkStart_shadow (s : State) : (chunkStart s).shadow = s.shadow := by rw [chunkStart_eq]; split <;> simp
@[simp] theorem chunkStart_rotorPhase (s : State) : (chunkStart s).rotorPhase = s.rotorPhase := by rw [chunkStart_eq]; split <;> simp
@[simp] theorem chunkStart_vibInc (s : State) : (chunkStart s).vibInc = s.vibInc := by rw [chunkStart_eq]; split <;> simp
@[simp] theorem chunkStart_resp (s : State) : (chunkStart s).resp = s.resp := by rw [chunkStart_eq]; split <;> simp
@[simp] theorem chunkStart_out (s : State) : (chunkStart s).out = s.out := by rw [chunkStart_eq]; split <;> simp
@[simp] theorem chunkStart_renderNo (s : State) : (chunkStart s).renderNo = s.renderNo := by rw [chunkStart_eq]; split <;> simp
@[simp] theorem chunkStart_cIn (s : State) : (chunkStart s).cIn = s.cIn := by rw [chunkStart_eq]; split <;> simp
@[simp] theorem chunkStart_rIn (s : State) : (chunkStart s).rIn = s.rIn := by rw [chunkStart_eq]; split <;> simp
@[simp] theorem chunkStart_sched (s : State) : (chunkStart s).sched = s.sched := by rw [chunkStart_eq]; split <;> simp
@[simp] theorem chunkStart_tick (s : State) : (chunkStart s).tick = s.tick := by rw [chunkStart_eq]; split <;> simp

end chunkStart_fields

section sampleNext_fields

@[simp] theorem sampleNext_cfg (s : State) : (sampleNext s).cfg = s.cfg := rfl
@[simp] theorem sampleNext_inited (s : State) : (sampleNext s).inited = s.inited := rfl
@[simp] theorem sampleNext_rendering (s : State) : (sampleNext s).rendering = s.rendering := rfl
@[simp] theorem sampleNext_sr (s : State) : (sampleNext s).sr = s.sr := rfl
@[simp] theorem sampleNext_initStat (s : State) : (sampleNext s).initStat = s.initStat := rfl
@[simp] theorem sampleNext_flags (s : State) : (sampleNext s).flags = s.flags := rfl
@[simp] theorem sampleNext_shadow (s : State) : (sampleNext s).shadow = s.shadow := rfl
@[simp] theorem sampleNext_active (s : State) : (sampleNext s).active = s.active := rfl
@[simp] theorem sampleNext_evq (s : State) : (sampleNext s).evq = s.evq := rfl
@[simp] theorem sampleNext_leslieCur (s : State) : (sampleNext s).leslieCur = s.leslieCur := rfl
@[simp] theorem sampleNext_vibPhase (s : State) : (sampleNext s).vibPhase = s.vibPhase := rfl
@[simp] theorem sampleNext_vibInc (s : State) : (sampleNext s).vibInc = s.vibInc := rfl
@[simp] theorem sampleNext_br (s : State) : (sampleNext s).br = s.br := rfl
@[simp] theorem sampleNext_seq (s : State) : (sampleNext s).seq = s.seq := rfl
@[simp] theorem sampleNext_resp (s : State) : (sampleNext s).resp = s.resp := rfl
@[simp] theorem sampleNext_out (s : State) : (sampleNext s).out = s.out := rfl
@[simp] theorem sampleNext_renderNo (s : State) : (sampleNext s).renderNo = s.renderNo := rfl
@[simp] theorem sampleNext_cIn (s : State) : (sampleNext s).cIn = s.cIn := rfl
@[simp] theorem sampleNext_rIn (s : State) : (sampleNext s).rIn = s.rIn := rfl
@[simp] theorem sampleNext_sched (s : State) : (sampleNext s).sched = s.sched := rfl
@[simp] theorem sampleNext_tick (s : State) : (sampleNext s).tick = s.tick := rfl
@[simp] theorem sampleNext_rotorPhase (s : State) : (sampleNext s).rotorPhase = s.rotorPhase + s.br.rotorInc := rfl

end sampleNext_fields

section sampleStep_fields

@[simp] theorem sampleStep_cfg (s : State) : (sampleStep s).cfg = s.cfg := by unfold sampleStep; split <;> rfl
@[simp] theorem sampleStep_inited (s : State) : (sampleStep s).inited = s.inited := by unfold sampleStep; split <;> rfl
@[simp] theorem sampleStep_sr (s : State) : (sampleStep s).sr = s.sr := by unfold sampleStep; split <;> rfl
@[simp] theorem sampleStep_initStat (s : State) : (sampleStep s).initStat = s.initStat := by unfold sampleStep; split <;> rfl
@[simp] theorem sampleStep_flags (s : State) : (sampleStep s).flags = s.flags := by unfold sampleStep; split <;> rfl
@[simp] theorem sampleStep_shadow (s : State) : (sampleStep s).shadow = s.shadow := by unfold sampleStep; split <;> rfl
@[simp] theorem sampleStep_active (s : State) : (sampleStep s).active = s.active := by unfold sampleStep; split <;> rfl
@[simp] theorem sampleStep_evq (s : State) : (sampleStep s).evq = s.evq := by unfold sampleStep; split <;> rfl
@[simp] theorem sampleStep_leslieCur (s : State) : (sampleStep s).leslieCur = s.leslieCur := by unfold sampleStep; split <;> rfl
@[simp] theorem sampleStep_vibPhase (s : State) : (sampleStep s).vibPhase = s.vibPhase := by unfold sampleStep; split <;> rfl
@[simp] theorem sampleStep_vibInc (s : State) : (sampleStep s).vibInc = s.vibInc := by unfold sampleStep; split <;> rfl
@[simp] theorem sampleStep_br (s : State) : (sampleStep s).br = s.br := by unfold sampleStep; split <;> rfl
@[simp] theorem sampleStep_resp (s : State) : (sampleStep s).resp = s.resp := by unfold sampleStep; split <;> rfl
@[simp] theorem sampleStep_renderNo (s : State) : (sampleStep s).renderNo = s.renderNo := by unfold sampleStep; split <;> rfl
@[simp] theorem sampleStep_cIn (s : State) : (sampleStep s).cIn = s.cIn := by unfold sampleStep; split <;> rfl
@[simp] theorem sampleStep_rIn (s : State) : (sampleStep s).rIn = s.rIn := by unfold sampleStep; split <;> rfl
@[simp] theorem sampleStep_sched (s : State) : (sampleStep s).sched = s.sched := by unfold sampleStep; split <;> rfl
@[simp] theorem sampleStep_tick (s : State) : (sampleStep s).tick = s.tick := by unfold sampleStep; split <;> rfl

end sampleStep_fields

section takeTurn_fields

@[simp] theorem takeTurn_cfg (s : State) : (takeTurn s).cfg = s.cfg := by unfold takeTurn; split <;> rfl
@[simp] theorem takeTurn_inited (s : State) : (takeTurn s).inited = s.inited := by unfold takeTurn; split <;> rfl
@[simp] theorem takeTurn_rendering (s : State) : (takeTurn s).rendering = s.rendering := by unfold takeTurn; split <;> rfl
@[simp] theorem takeTurn_sr (s : State) : (takeTurn s).sr = s.sr := by unfold takeTurn; split <;> rfl
@[simp] theorem takeTurn_initStat (s : State) : (takeTurn s).initStat = s.initStat := by unfold takeTurn; split <;> rfl
@[simp] theorem takeTurn_flags (s : State) : (takeTurn s).flags = s.flags := by unfold takeTurn; split <;> rfl
@[simp] theorem takeTurn_shadow (s : State) : (takeTurn s).shadow = s.shadow := by unfold takeTurn; split <;> rfl
@[simp] theorem takeTurn_active (s : State) : (takeTurn s).active = s.active := by unfold takeTurn; split <;> rfl
@[simp] theorem takeTurn_evq (s : State) : (takeTurn s).evq = s.evq := by unfold takeTurn; split <;> rfl
@[simp] theorem takeTurn_pool (s : State) : (takeTurn s).pool = s.pool := by unfold takeTurn; split <;> rfl
@[simp] theorem takeTurn_leslieCur (s : State) : (takeTurn s).leslieCur = s.leslieCur := by unfold takeTurn; split <;> rfl
@[simp] theorem takeTurn_rotorPhase (s : State) : (takeTurn s).rotorPhase = s.rotorPhase := by unfold takeTurn; split <;> rfl
@[simp] theorem takeTurn_vibPhase (s : State) : (takeTurn s).vibPhase = s.vibPhase := by unfold takeTurn; split <;> rfl
@[simp] theorem takeTurn_vibInc (s : State) : (takeTurn s).vibInc = s.vibInc := by unfold takeTurn; split <;> rfl
@[simp] theorem takeTurn_br (s : State) : (takeTurn s).br = s.br := by unfold takeTurn; split <;> rfl
@[simp] theorem takeTurn_seq (s : State) : (takeTurn s).seq = s.seq := by unfold takeTurn; split <;> rfl
@[simp] theorem takeTurn_resp (s : State) : (takeTurn s).resp = s.resp := by unfold takeTurn; split <;> rfl
@[simp] theorem takeTurn_out (s : State) : (takeTurn s).out = s.out := by unfold takeTurn; split <;> rfl
@[simp] theorem takeTurn_renderNo (s : State) : (takeTurn s).renderNo = s.renderNo := by unfold takeTurn; split <;> rfl
@[simp] theorem takeTurn_cIn (s : State) : (takeTurn s).cIn = s.cIn := by unfold takeTurn; split <;> rfl
@[simp] theorem takeTurn_rIn (s : State) : (takeTurn s).rIn = s.rIn := by unfold takeTurn; split <;> rfl

end takeTurn_fields

/-- The sequencer after a chunk start (R216). -/
@[simp] theorem chunkStart_seq (s : State) :
    (chunkStart s).seq = { s.seq with left := min chunkSize s.seq.rem.toNat, live := s.inited } := by
  rw [chunkStart_eq]; split <;> simp [openChunk]

/-- The sequencer after a sample step (R216). -/
@[simp] theorem sampleStep_seq (s : State) :
    (sampleStep s).seq = { s.seq with sIdx := s.seq.sIdx + 1, rem := s.seq.rem - 1, left := s.seq.left - 1 } := rfl

/-- Whether the RENDER goes on after a sample step (R216). -/
@[simp] theorem sampleStep_rendering (s : State) :
    (sampleStep s).rendering = if s.seq.rem - 1 = 0 then false else s.rendering := rfl

/-- The output space after a sample step (R225). -/
@[simp] theorem sampleStep_out (s : State) :
    (sampleStep s).out =
      s.out.writeChannels s.renderNo s.seq.sIdx.toNat s.seq.chN.toNat (if s.seq.live then sampleOut s else 0) := rfl

/-- The voice pool after a sample step: the SAMPLE of a live chunk moves it, a silent sample does not (R216, R220). -/
theorem sampleStep_pool (s : State) :
    (sampleStep s).pool = if s.seq.live then (sampleNext s).pool else s.pool := by
  unfold sampleStep; split <;> rfl

/-- The rotor phase after a sample step (R205, R216). -/
theorem sampleStep_rotorPhase (s : State) :
    (sampleStep s).rotorPhase = if s.seq.live then s.rotorPhase + s.br.rotorInc else s.rotorPhase := by
  unfold sampleStep; split <;> rfl

end Sys2Proof.Machine
end

