-- ==== Sys2Proof/Laws/Engine.lean ====
section
/-! SUPPORT. What the engine's functions can do: the narrowing operations in integers, the widths of the block-rate registers, the power loop,
the rotor, the choice of a slot, and the shape of each voice operation. -/

namespace Sys2Proof.Machine

/-! ### Narrowing -/

theorem satU32_toNat (v : Int) : ((satU32 v).toNat : Int) = max 0 (min v (2 ^ 32 - 1)) := by
  simp only [satU32, BitVec.toNat_ofNat]; omega

theorem satI16_toInt (v : Int) : (satI16 v).toInt = max (-32768) (min v 32767) := by
  simp only [satI16, BitVec.toInt_ofInt]
  apply Int.bmod_eq_of_le <;> omega

theorem lim15_le (w : Word) : lim15 w ≤ 32768 := by simp only [lim15, one15]; omega

theorem cdiv_mul_ge (a b : Nat) (h : b ≠ 0) : a ≤ b * cdiv a b := by
  have h1 := Nat.div_add_mod (a + b - 1) b
  have h2 := Nat.mod_lt (a + b - 1) (Nat.pos_of_ne_zero h)
  simp only [cdiv]; omega

theorem cdiv_le (a b : Nat) (h : b ≠ 0) : cdiv a b ≤ a := by
  simp only [cdiv]
  rcases Nat.eq_zero_or_pos a with rfl | ha
  · rw [Nat.div_eq_of_lt (by omega)]
  · refine Nat.le_of_lt_succ (Nat.div_lt_of_lt_mul ?_)
    have : b * 1 ≤ b * a := Nat.mul_le_mul_left b ha
    rw [Nat.mul_succ]
    have h2 : a ≤ b * a := Nat.le_mul_of_pos_left a (Nat.pos_of_ne_zero h)
    omega

/-! ### The envelope -/

theorem durationSamples_lt (reg : Nat) (sr : Word) (h : reg < 2 ^ 32) : durationSamples reg sr < 2 ^ 48 := by
  simp only [durationSamples, fdiv]
  apply Nat.div_lt_of_lt_mul
  have h2 := sr.isLt
  nlinarith

theorem sustainLevel_le (b : Bank) : sustainLevel b ≤ 2 ^ 30 := by
  have := lim15_le b.p[regSustain]
  simp only [sustainLevel]; omega

theorem attackStep_le (n : Nat) : attackStep n ≤ 2 ^ 30 := by
  unfold attackStep; split
  · simp [envOne]
  · exact cdiv_le _ _ ‹_›

theorem decayStep_le (n sus : Nat) : decayStep n sus ≤ 2 ^ 30 := by
  unfold decayStep; split
  · simp only [envOne]; omega
  · exact (cdiv_le _ _ ‹_›).trans (by simp only [envOne]; omega)

section constants
variable (b : Bank) (sr : Word) (r : BlockRate)

/-- No envelope constant is cut by the width of its register (R55, R171). -/
theorem envelopeConstants_susLvl : (envelopeConstants b sr r).susLvl.toNat = sustainLevel b := by
  have := sustainLevel_le b
  simp only [envelopeConstants, BitVec.toNat_ofNat]; omega

theorem envelopeConstants_attN : (envelopeConstants b sr r).attN.toNat = durationSamples (b.reg regAttack) sr := by
  have := durationSamples_lt (b.reg regAttack) sr (b.p[regAttack]).isLt
  simp only [envelopeConstants, BitVec.toNat_ofNat]; omega

theorem envelopeConstants_decN : (envelopeConstants b sr r).decN.toNat = durationSamples (b.reg regDecay) sr := by
  have := durationSamples_lt (b.reg regDecay) sr (b.p[regDecay]).isLt
  simp only [envelopeConstants, BitVec.toNat_ofNat]; omega

theorem envelopeConstants_attStep :
    (envelopeConstants b sr r).attStep.toNat = attackStep (durationSamples (b.reg regAttack) sr) := by
  have := attackStep_le (durationSamples (b.reg regAttack) sr)
  simp only [envelopeConstants, BitVec.toNat_ofNat]; omega

theorem envelopeConstants_decStep :
    (envelopeConstants b sr r).decStep.toNat = decayStep (durationSamples (b.reg regDecay) sr) (sustainLevel b) := by
  have := decayStep_le (durationSamples (b.reg regDecay) sr) (sustainLevel b)
  simp only [envelopeConstants, BitVec.toNat_ofNat]; omega

end constants

/-- A sample moves the level of a voice and nothing else (R174). -/
theorem envStep_eq (r : BlockRate) (v : Voice) : envStep r v = { v with level := (envStep r v).level } := by
  obtain ⟨stage⟩ := v; cases stage <;> rfl

@[simp] theorem envStep_stage (r : BlockRate) (v : Voice) : (envStep r v).stage = v.stage := by rw [envStep_eq]

@[simp] theorem envStep_relStep (r : BlockRate) (v : Voice) : (envStep r v).relStep = v.relStep := by rw [envStep_eq]

@[simp] theorem envStep_note (r : BlockRate) (v : Voice) : (envStep r v).note = v.note := by rw [envStep_eq]

@[simp] theorem envStep_sustained (r : BlockRate) (v : Voice) : (envStep r v).sustained = v.sustained := by rw [envStep_eq]

/-- A sample of a release takes the step off the level, down to 0 (R174). -/
theorem envStep_release_level (r : BlockRate) (v : Voice) (h : v.stage = .release) :
    (envStep r v).level.toNat = v.level.toNat - v.relStep.toNat := by
  have := v.level.isLt
  simp only [envStep, h, BitVec.toNat_ofNat]; omega

/-- A sample of an attack adds the step to the level, up to full scale (R174). -/
theorem envStep_attack_level (r : BlockRate) (v : Voice) (h : v.stage = .attack) :
    (envStep r v).level.toNat = min (2 ^ 30) (v.level.toNat + r.attStep.toNat) := by
  simp only [envStep, h, envOne, BitVec.toNat_ofNat]; omega

/-- A sample of a decay takes the step off the level, down to the sustain level (R174). -/
theorem envStep_decay_level (r : BlockRate) (v : Voice) (h : v.stage = .decay) :
    (envStep r v).level.toNat = max r.susLvl.toNat (v.level.toNat - r.decStep.toNat) := by
  have := v.level.isLt
  have := r.susLvl.isLt
  simp only [envStep, h, BitVec.toNat_ofNat]; omega

/-- A voice that enters Release is in Release, not held, with a level and a step no larger than its level was (R176). -/
theorem enterRelease_bounds (b : Bank) (sr : Word) (v : Voice) :
    (enterRelease b sr v).stage = .release ∧ (enterRelease b sr v).sustained = false ∧
      (enterRelease b sr v).note = v.note ∧ (enterRelease b sr v).level.toNat ≤ v.level.toNat ∧
      (enterRelease b sr v).relStep.toNat ≤ v.level.toNat := by
  simp only [enterRelease]; split
  · simp
  · rename_i h
    have h1 := cdiv_le v.level.toNat _ h
    have h2 := v.level.isLt
    refine ⟨rfl, rfl, rfl, le_refl _, ?_⟩
    simp only [BitVec.toNat_ofNat]; omega

/-! ### The waveshaper -/

/-- A product of the power loop never rises (R192). -/
theorem powStep_le (u pw : Nat) (hu : u ≤ 32768) : powStep u pw ≤ pw := by
  simp only [powStep]
  exact Nat.div_le_of_le_mul (by nlinarith)

/-- The power loop never rises above the base (R192). -/
theorem powLoop_le (u k : Nat) (hu : u ≤ 32768) : powLoop u k ≤ u := by
  induction k with
  | zero => exact le_refl u
  | succ k ih => exact (powStep_le u _ hu).trans ih

/-- The power loop is the repeated product (R192). -/
theorem powLoop_eq_iterate (u k : Nat) : powLoop u k = (powStep u)^[k] u := by
  induction k with
  | zero => rfl
  | succ k ih => rw [Function.iterate_succ_apply', powLoop, ih]

/-! ### The rotor -/

theorem leslieTarget_bounds (b : Bank) : 0x10000 ≤ leslieTarget b ∧ leslieTarget b ≤ 0x80000 := by
  simp only [leslieTarget, clamp]; omega

/-- The ramp ends between the speed it starts from and the target (R202). -/
theorem leslieRamp_bounds (cur tgt step : Nat) :
    min cur tgt ≤ leslieRamp cur tgt step ∧ leslieRamp cur tgt step ≤ max cur tgt := by
  unfold leslieRamp; split_ifs <;> omega

/-- The rotor speed after PREP is not cut by the width of its register (R52, R202). -/
theorem prep_leslieCur_toNat (len : Nat) (s : State) :
    (prep len s).leslieCur.toNat =
      leslieRamp s.leslieCur.toNat (leslieTarget s.shadow) (leslieStep s.cfg s.sr len) := by
  have h1 := leslieTarget_bounds s.shadow
  have h2 := leslieRamp_bounds s.leslieCur.toNat (leslieTarget s.shadow) (leslieStep s.cfg s.sr len)
  have h3 := s.leslieCur.isLt
  rw [prep_leslieCur, BitVec.toNat_ofNat]; omega

/-! ### The choice of a slot -/

/-- What `oldest` answers: a slot that satisfies `p`, older than every such slot before it and at least as old as every such slot after
it (R135). -/
theorem oldest_spec (now : Word) (p : Voice → Bool) (vs : List Voice) :
    (oldest now p vs = none ∧ ∀ v ∈ vs, p v = false) ∨
    ∃ i v, oldest now p vs = some (i, v.age now) ∧ vs[i]? = some v ∧ p v = true ∧
      ∀ j w, vs[j]? = some w → p w = true → w.age now < v.age now ∨ (w.age now = v.age now ∧ i ≤ j) := by
  induction vs with
  | nil => exact .inl ⟨rfl, by simp⟩
  | cons x vs ih =>
    cases hp : p x
    · rcases ih with ⟨ho, hv⟩ | ⟨i, v, ho, hi, hv, hmax⟩
      · exact .inl ⟨by simp [oldest, ho, hp], by simpa [hp] using hv⟩
      · refine .inr ⟨i + 1, v, by simp [oldest, ho, hp], hi, hv, fun j w hw hq => ?_⟩
        cases j with
        | zero => simp at hw; subst hw; simp [hp] at hq
        | succ j => have := hmax j w hw hq; omega
    · rcases ih with ⟨ho, hv⟩ | ⟨i, v, ho, hi, hv, hmax⟩
      · refine .inr ⟨0, x, by simp [oldest, ho, hp], rfl, hp, fun j w hw hq => ?_⟩
        cases j with
        | zero => simp at hw; subst hw; exact .inr ⟨rfl, le_refl _⟩
        | succ j => exact absurd hq (by simp [hv w (List.mem_of_getElem? hw)])
      · by_cases hlt : x.age now < v.age now
        · refine .inr ⟨i + 1, v, by simp [oldest, ho, hp, hlt], hi, hv, fun j w hw hq => ?_⟩
          cases j with
          | zero => simp at hw; subst hw; exact .inl hlt
          | succ j => have := hmax j w hw hq; omega
        · refine .inr ⟨0, x, by simp [oldest, ho, hp, hlt], rfl, hp, fun j w hw hq => ?_⟩
          cases j with
          | zero => simp at hw; subst hw; exact .inr ⟨rfl, le_refl _⟩
          | succ j => have := hmax j w hw hq; omega

/-- Where no slot answers, no slot is there (R134). -/
theorem chooseSlot_none (now : Word) (note : BitVec 7) (vs : List Voice) (h : chooseSlot now note vs = none) : vs = [] := by
  unfold chooseSlot at h
  split at h
  · simp at h
  · split at h
    · simp at h
    · split at h
      · simp at h
      · rcases oldest_spec now (fun _ => true) vs with ⟨-, hv⟩ | ⟨i, v, ho, -⟩
        · cases vs with
          | nil => rfl
          | cons x vs => exact absurd (hv x List.mem_cons_self) (by simp)
        · simp [ho] at h

/-- The four cases of the order of R134, each with what it excludes. -/
theorem chooseSlot_cases (now : Word) (note : BitVec 7) (vs : List Voice) (i : Nat) (h : chooseSlot now note vs = some i) :
    ∃ v, vs[i]? = some v ∧
      ((v.playing note = true ∧ ∀ j w, j < i → vs[j]? = some w → w.playing note = false) ∨
       ((∀ w ∈ vs, w.playing note = false) ∧ v.stage = .idle ∧ ∀ j w, j < i → vs[j]? = some w → w.stage ≠ .idle) ∨
       ((∀ w ∈ vs, w.playing note = false ∧ w.stage ≠ .idle) ∧ v.stage = .release ∧
          ∀ j w, vs[j]? = some w → w.stage = .release → w.age now < v.age now ∨ (w.age now = v.age now ∧ i ≤ j)) ∨
       ((∀ w ∈ vs, w.playing note = false ∧ w.stage ≠ .idle ∧ w.stage ≠ .release) ∧
          ∀ j w, vs[j]? = some w → w.age now < v.age now ∨ (w.age now = v.age now ∧ i ≤ j))) := by
  have first : ∀ (p : Voice → Bool) (k : Nat), vs.findIdx? p = some k →
      ∃ v, vs[k]? = some v ∧ p v = true ∧ ∀ j w, j < k → vs[j]? = some w → p w = false := by
    intro p k hk
    obtain ⟨hlt, hp, hb⟩ := List.findIdx?_eq_some_iff_getElem.1 hk
    refine ⟨vs[k], by simp [hlt], hp, fun j w hj hw => ?_⟩
    obtain ⟨hj', rfl⟩ := List.getElem?_eq_some_iff.1 hw
    simpa using hb j hj
  unfold chooseSlot at h
  split at h
  · rename_i k hk
    obtain rfl : k = i := by simpa using h
    obtain ⟨v, hv, hp, hb⟩ := first _ _ hk
    exact ⟨v, hv, .inl ⟨hp, hb⟩⟩
  · rename_i hno
    have hno := List.findIdx?_eq_none_iff.1 hno
    split at h
    · rename_i k hk
      obtain rfl : k = i := by simpa using h
      obtain ⟨v, hv, hp, hb⟩ := first _ _ hk
      exact ⟨v, hv, .inr (.inl ⟨hno, by simpa using hp, fun j w hj hw => by simpa using hb j w hj hw⟩)⟩
    · rename_i hni
      have hni := List.findIdx?_eq_none_iff.1 hni
      split at h
      · rename_i x hx
        rcases oldest_spec now (fun v => v.stage == .release) vs with ⟨ho, -⟩ | ⟨k, v, ho, hk, hp, hmax⟩
        · simp [ho] at hx
        · rw [ho] at hx
          obtain rfl : k = i := by simp at hx h; rw [← hx] at h; exact h
          refine ⟨v, hk, .inr (.inr (.inl ⟨fun w hw => ⟨hno w hw, by simpa using hni w hw⟩, by simpa using hp, ?_⟩))⟩
          exact fun j w hj hw => hmax j w hj (by simpa using hw)
      · rename_i hx
        rcases oldest_spec now (fun v => v.stage == .release) vs with ⟨-, hnr⟩ | ⟨k, v, ho, -⟩
        · rcases oldest_spec now (fun _ => true) vs with ⟨ho, -⟩ | ⟨k, v, ho, hk, -, hmax⟩
          · simp [ho] at h
          · obtain rfl : k = i := by simpa [ho] using h
            refine ⟨v, hk, .inr (.inr (.inr ⟨fun w hw => ⟨hno w hw, by simpa using hni w hw, by simpa using hnr w hw⟩, ?_⟩))⟩
            exact fun j w hj => hmax j w hj rfl
        · simp [ho] at hx

end Sys2Proof.Machine
end

