-- ==== Sys2Proof/Laws/Memory.lean ====
section
/-! SUPPORT. The laws of the output space: a read after a write, what a write leaves alone, and the canonical form. -/

namespace Sys2Proof.Machine

/-- A write is read back. -/
theorem Memory.read_write_same (m : Memory) (a : Nat) (v : Sample) : (m.write a v).read a = some v := by
  induction m with
  | nil => simp [Memory.write, Memory.read]
  | cons x m ih =>
    obtain ⟨b, w⟩ := x
    simp only [Memory.write]
    split_ifs with h1 h2
    · simp [Memory.read]
    · simp [Memory.read]
    · simp [Memory.read, h2, ih]

/-- A write leaves every other address alone. -/
theorem Memory.read_write_other (m : Memory) (a b : Nat) (v : Sample) (h : b ≠ a) :
    (m.write a v).read b = m.read b := by
  induction m with
  | nil => simp [Memory.write, Memory.read, h]
  | cons x m ih =>
    obtain ⟨c, w⟩ := x
    simp only [Memory.write]
    split_ifs with h1 h2
    · simp [Memory.read, h]
    · subst h2; simp [Memory.read, h]
    · simp [Memory.read, ih]

/-- The addresses listed after a write: those before it and the one written. -/
theorem Memory.mem_write (m : Memory) (a : Nat) (v : Sample) (x : Nat × Sample) (h : x ∈ m.write a v) :
    x = (a, v) ∨ x ∈ m := by
  induction m with
  | nil => simpa [Memory.write] using h
  | cons y m ih =>
    obtain ⟨b, w⟩ := y
    simp only [Memory.write] at h
    split_ifs at h with h1 h2
    · simpa using h
    · rcases List.mem_cons.1 h with h | h
      · exact .inl h
      · exact .inr (List.mem_cons_of_mem _ h)
    · rcases List.mem_cons.1 h with h | h
      · exact .inr (h ▸ List.mem_cons_self ..)
      · exact (ih h).imp id (List.mem_cons_of_mem _)

/-- A write keeps the canonical form. -/
theorem Memory.wf_write (m : Memory) (a : Nat) (v : Sample) (h : m.wf) : (m.write a v).wf := by
  induction m with
  | nil => simp [Memory.wf, Memory.write]
  | cons y m ih =>
    obtain ⟨b, w⟩ := y
    simp only [Memory.wf, List.map_cons, List.pairwise_cons] at h ih
    simp only [Memory.write]
    split_ifs with h1 h2
    · simp only [Memory.wf, List.map_cons, List.pairwise_cons, List.mem_cons, forall_eq_or_imp]
      exact ⟨⟨h1, fun c hc => h1.trans (h.1 c hc)⟩, h⟩
    · subst h2
      simpa only [Memory.wf, List.map_cons, List.pairwise_cons] using h
    · simp only [Memory.wf, List.map_cons, List.pairwise_cons]
      refine ⟨fun c hc => ?_, ih h.2⟩
      obtain ⟨x, hx, rfl⟩ := List.mem_map.1 hc
      rcases Memory.mem_write m a v x hx with rfl | hx
      · simp only; omega
      · exact h.1 _ (List.mem_map_of_mem hx)

/-- Distinct elements of an output space have distinct addresses, as long as channels and sample indices fit their operands (R105). -/
theorem outAddr_inj {r s c r' s' c' : Nat} (hs : s < 2 ^ 32) (hc : c < 256) (hs' : s' < 2 ^ 32) (hc' : c' < 256)
    (h : outAddr r s c = outAddr r' s' c') : r = r' ∧ s = s' ∧ c = c' := by
  simp only [outAddr] at h; omega

/-- The order of writing is the order of addresses (R91): by RENDER, then by sample index, then by channel. -/
theorem outAddr_lt {r s c r' s' c' : Nat} (hs : s < 2 ^ 32) (hc : c < 256)
    (h : r < r' ∨ r = r' ∧ (s < s' ∨ s = s' ∧ c < c')) : outAddr r s c < outAddr r' s' c' := by
  simp only [outAddr]; omega

/-- One more channel. -/
theorem Memory.writeChannels_succ (m : Memory) (r s ch : Nat) (v : Sample) :
    m.writeChannels r s (ch + 1) v = (m.writeChannels r s ch v).write (outAddr r s ch) v := by
  simp [Memory.writeChannels, List.range_succ]

@[simp] theorem Memory.writeChannels_zero (m : Memory) (r s : Nat) (v : Sample) : m.writeChannels r s 0 v = m := rfl

/-- Every channel reads the sample written (R225). -/
theorem Memory.read_writeChannels_same (m : Memory) (r s ch c : Nat) (v : Sample) (h : c < ch) :
    (m.writeChannels r s ch v).read (outAddr r s c) = some v := by
  induction ch with
  | zero => omega
  | succ k ih =>
    rw [Memory.writeChannels_succ]
    by_cases hk : c = k
    · rw [hk, Memory.read_write_same]
    · rw [Memory.read_write_other _ _ _ _ (by simp only [outAddr]; omega), ih (by omega)]

/-- Every other address is left alone. -/
theorem Memory.read_writeChannels_other (m : Memory) (r s ch a : Nat) (v : Sample) (h : ∀ c < ch, a ≠ outAddr r s c) :
    (m.writeChannels r s ch v).read a = m.read a := by
  induction ch with
  | zero => rfl
  | succ k ih =>
    rw [Memory.writeChannels_succ, Memory.read_write_other _ _ _ _ (h k (by omega)), ih fun c hc => h c (by omega)]

/-- Writing the channels keeps the canonical form. -/
theorem Memory.wf_writeChannels (m : Memory) (r s ch : Nat) (v : Sample) (h : m.wf) : (m.writeChannels r s ch v).wf := by
  induction ch with
  | zero => exact h
  | succ k ih => rw [Memory.writeChannels_succ]; exact Memory.wf_write _ _ _ ih

/-- What is listed after writing the channels: what was, and the elements written. -/
theorem Memory.mem_writeChannels (m : Memory) (r s ch : Nat) (v : Sample) (x : Nat × Sample)
    (h : x ∈ m.writeChannels r s ch v) : x ∈ m ∨ ∃ c < ch, x = (outAddr r s c, v) := by
  induction ch with
  | zero => exact .inl h
  | succ k ih =>
    rw [Memory.writeChannels_succ] at h
    rcases Memory.mem_write _ _ _ _ h with h | h
    · exact .inr ⟨k, by omega, h⟩
    · exact (ih h).imp id fun ⟨c, hc, he⟩ => ⟨c, by omega, he⟩

end Sys2Proof.Machine
end

