-- ==== Sys2Proof/Laws/Ops.lean ====
section
/-! SUPPORT. What each shared operation can do, said once, and from it what each command answers. -/

namespace Sys2Proof.Machine

/-- The event queue takes an event where it has room, and otherwise raises EVQOVF (R79). -/
theorem evqPush_cases (e : Event) (s : State) :
    (s.evq.length < s.cfg.evqDepth ∧ evqPush e s = { s with evq := s.evq ++ [e] }) ∨
    (s.cfg.evqDepth ≤ s.evq.length ∧ evqPush e s = { s with flags := { s.flags with evqOvf := true } }) := by
  unfold evqPush; split
  · exact .inl ⟨‹_›, rfl⟩
  · exact .inr ⟨by omega, rfl⟩

/-- The lifecycle check of a command that does not respond (R279). -/
theorem whenInited_cases (s done : State) :
    (s.inited = true ∧ whenInited s done = done) ∨
    (s.inited = false ∧ whenInited s done = { s with flags := { s.flags with notInit := true } }) := by
  unfold whenInited; cases h : s.inited <;> simp [h, raise, Flags.set]

/-- The lifecycle check of a responder (R279). -/
theorem whenInitedResp_cases (s done : State) :
    (s.inited = true ∧ whenInitedResp s done = done) ∨
    (s.inited = false ∧
      whenInitedResp s done = { s with resp := s.resp ++ [0], flags := { s.flags with notInit := true } }) := by
  unfold whenInitedResp; cases h : s.inited <;> simp [h, raise, respond, Flags.set]

/-- A register write reaches the shadow bank, or raises BADIDX (R76). -/
theorem storeShadow_cases (b : Option Bank) (s : State) :
    (∃ b', b = some b' ∧ storeShadow b s = { s with shadow := b' }) ∨
    (b = none ∧ storeShadow b s = { s with flags := { s.flags with badIdx := true } }) := by
  cases b with
  | none => exact .inr ⟨rfl, rfl⟩
  | some b => exact .inl ⟨b, rfl, rfl⟩

/-- A register read answers its value, or 0 with BADIDX (R76). -/
theorem answer_cases (v : Option Word) (s : State) :
    (∃ w, v = some w ∧ answer v s = { s with resp := s.resp ++ [w] }) ∨
    (v = none ∧ answer v s = { s with resp := s.resp ++ [0], flags := { s.flags with badIdx := true } }) := by
  cases v with
  | none => exact .inr ⟨rfl, rfl⟩
  | some w => exact .inl ⟨w, rfl, rfl⟩

/-- Bank 0 of REG by number: assigned below 13 (R76). -/
theorem writeParam_cases (b : Bank) (reg : BitVec 8) (value : Word) :
    (∃ h : reg.toNat < 13, b.writeParam reg value = some { b with p := b.p.set reg.toNat value h }) ∨
    (13 ≤ reg.toNat ∧ b.writeParam reg value = none) := by
  unfold Bank.writeParam; split
  · exact .inl ⟨‹_›, rfl⟩
  · exact .inr ⟨by omega, rfl⟩

/-- Bank 1 of REG by index: assigned below 9; a write selects Drawbar (R44, R76). -/
theorem writeDrawbar_cases (b : Bank) (index : BitVec 8) (value : Word) :
    (∃ h : index.toNat < 9,
      b.writeDrawbar index value = some { b with db := b.db.set index.toNat value h, mode := .drawbar }) ∨
    (9 ≤ index.toNat ∧ b.writeDrawbar index value = none) := by
  unfold Bank.writeDrawbar; split
  · exact .inl ⟨‹_›, rfl⟩
  · exact .inr ⟨by omega, rfl⟩

/-- Bank 2 of REG by index: assigned below 16; a write selects Harmonic (R44, R76). -/
theorem writeHarmonic_cases (b : Bank) (index : BitVec 8) (value : Word) :
    (∃ h : index.toNat < 16,
      b.writeHarmonic index value = some { b with hl := b.hl.set index.toNat value h, mode := .harmonic }) ∨
    (16 ≤ index.toNat ∧ b.writeHarmonic index value = none) := by
  unfold Bank.writeHarmonic; split
  · exact .inl ⟨‹_›, rfl⟩
  · exact .inr ⟨by omega, rfl⟩

/-- The status of an INIT, first match wins (R260). -/
theorem initStatus_cases (sr : Word) (s : State) :
    (s.inited = true ∧ initStatus sr s = 2) ∨
    (s.inited = false ∧ s.rendering = true ∧ initStatus sr s = 3) ∨
    (s.inited = false ∧ s.rendering = false ∧ (sr.toNat < s.cfg.srMin ∨ s.cfg.srMax < sr.toNat) ∧ initStatus sr s = 1) ∨
    (s.inited = false ∧ s.rendering = false ∧ s.cfg.srMin ≤ sr.toNat ∧ sr.toNat ≤ s.cfg.srMax ∧ initStatus sr s = 0) := by
  unfold initStatus
  cases s.inited <;> cases s.rendering <;> simp
  omega

/-- What an INIT answers: a failed one records and responds its status only, a successful one resets the engine (R260). -/
theorem execInit_cases (sr : Word) (s : State) :
    (initStatus sr s ≠ 0 ∧ execInit sr s = .next
      { s with initStat := initStatus sr s, resp := s.resp ++ [(initStatus sr s).setWidth 32] }) ∨
    (initStatus sr s = 0 ∧ execInit sr s = .next (respond 0 { initEngine sr s with initStat := 0 })) := by
  by_cases h : initStatus sr s = 0
  · exact .inr ⟨h, by simp only [execInit, h, if_true]; rfl⟩
  · exact .inl ⟨h, by simp only [execInit, if_neg h]; rfl⟩

end Sys2Proof.Machine
end

