-- ==== Sys2Proof/Laws/PerInstr.lean ====
section
/-! SUPPORT. Statements about every command, one lemma per constructor. RowOfEncode: the word the encoder writes belongs to a row of the
opcode map of the command's own port, and the operands read from that row are the command's (R103, R104, R105, R110). -/

namespace Sys2Proof.Laws.RowOfEncode

/-- The word of the command belongs to a row of the opcode map, of its port, and carries its operands. -/
def Statement (i : Instr) : Prop :=
  ∃ r ∈ opcodeTable, r.accepts (encode i) = true ∧ operands r.name (encode i) = i ∧ r.port = i.port

theorem init (sr : Word) : Statement (.init sr) := by
  refine ⟨⟨.INIT, .control, 0x0100000000000000, 0xFFFFFFFF00000000⟩, by decide, ?_, by simp [operands, encode], rfl⟩
  rw [encode, packWord_eq, accepts_joinFields _ _ _ _ _ 0xFF 0xFF 0xFF 0xFF 0x01 0x00 0x00 0x00 _ 0x00000000 0x00000000 (by decide) (by decide)]
  simp

theorem deinit : Statement .deinit := by
  refine ⟨⟨.DEINIT, .control, 0x0200000000000000, 0xFFFFFFFFFFFFFFFF⟩, by decide, ?_, by simp [operands], rfl⟩
  rw [encode, packWord_eq, accepts_joinFields _ _ _ _ _ 0xFF 0xFF 0xFF 0xFF 0x02 0x00 0x00 0x00 _ 0xFFFFFFFF 0x00000000 (by decide) (by decide)]
  simp

theorem rdstat : Statement .rdstat := by
  refine ⟨⟨.RDSTAT, .control, 0x0300000000000000, 0xFFFFFFFFFFFFFFFF⟩, by decide, ?_, by simp [operands], rfl⟩
  rw [encode, packWord_eq, accepts_joinFields _ _ _ _ _ 0xFF 0xFF 0xFF 0xFF 0x03 0x00 0x00 0x00 _ 0xFFFFFFFF 0x00000000 (by decide) (by decide)]
  simp

theorem play (note vel : BitVec 7) (freq : Word) : Statement (.play note vel freq) := by
  refine ⟨⟨.PLAY, .control, 0x1000000000000000, 0xFF8080FF00000000⟩, by decide, ?_, by simp [operands, encode], rfl⟩
  rw [encode, packWord_eq, accepts_joinFields _ _ _ _ _ 0xFF 0x80 0x80 0xFF 0x10 0x00 0x00 0x00 _ 0x00000000 0x00000000 (by decide) (by decide)]
  simp

theorem stop (note : BitVec 7) (imm : Bool) : Statement (.stop note imm) := by
  refine ⟨⟨.STOP, .control, 0x1100000000000000, 0xFF80FEFFFFFFFFFF⟩, by decide, ?_, by simp [operands, encode], rfl⟩
  rw [encode, packWord_eq, accepts_joinFields _ _ _ _ _ 0xFF 0x80 0xFE 0xFF 0x11 0x00 0x00 0x00 _ 0xFFFFFFFF 0x00000000 (by decide) (by decide)]
  simp

theorem pedal (down : Bool) : Statement (.pedal down) := by
  refine ⟨⟨.PEDAL, .control, 0x1200000000000000, 0xFFFFFEFFFFFFFFFF⟩, by decide, ?_, by simp [operands, encode], rfl⟩
  rw [encode, packWord_eq, accepts_joinFields _ _ _ _ _ 0xFF 0xFF 0xFE 0xFF 0x12 0x00 0x00 0x00 _ 0xFFFFFFFF 0x00000000 (by decide) (by decide)]
  simp

theorem wrp (reg : BitVec 8) (value : Word) : Statement (.wrp reg value) := by
  refine ⟨⟨.WRP, .control, 0x2000000000000000, 0xFF00FFFF00000000⟩, by decide, ?_, by simp [operands, encode], rfl⟩
  rw [encode, packWord_eq, accepts_joinFields _ _ _ _ _ 0xFF 0x00 0xFF 0xFF 0x20 0x00 0x00 0x00 _ 0x00000000 0x00000000 (by decide) (by decide)]
  simp

theorem rdp (reg : BitVec 8) : Statement (.rdp reg) := by
  refine ⟨⟨.RDP, .control, 0x2100000000000000, 0xFF00FFFFFFFFFFFF⟩, by decide, ?_, by simp [operands, encode], rfl⟩
  rw [encode, packWord_eq, accepts_joinFields _ _ _ _ _ 0xFF 0x00 0xFF 0xFF 0x21 0x00 0x00 0x00 _ 0xFFFFFFFF 0x00000000 (by decide) (by decide)]
  simp

theorem setdb (index : BitVec 8) (value : Word) : Statement (.setdb index value) := by
  refine ⟨⟨.SETDB, .control, 0x3000000000000000, 0xFF00FFFF00000000⟩, by decide, ?_, by simp [operands, encode], rfl⟩
  rw [encode, packWord_eq, accepts_joinFields _ _ _ _ _ 0xFF 0x00 0xFF 0xFF 0x30 0x00 0x00 0x00 _ 0x00000000 0x00000000 (by decide) (by decide)]
  simp

theorem getdb (index : BitVec 8) : Statement (.getdb index) := by
  refine ⟨⟨.GETDB, .control, 0x3100000000000000, 0xFF00FFFFFFFFFFFF⟩, by decide, ?_, by simp [operands, encode], rfl⟩
  rw [encode, packWord_eq, accepts_joinFields _ _ _ _ _ 0xFF 0x00 0xFF 0xFF 0x31 0x00 0x00 0x00 _ 0xFFFFFFFF 0x00000000 (by decide) (by decide)]
  simp

theorem sethl (index : BitVec 8) (value : Word) : Statement (.sethl index value) := by
  refine ⟨⟨.SETHL, .control, 0x3200000000000000, 0xFF00FFFF00000000⟩, by decide, ?_, by simp [operands, encode], rfl⟩
  rw [encode, packWord_eq, accepts_joinFields _ _ _ _ _ 0xFF 0x00 0xFF 0xFF 0x32 0x00 0x00 0x00 _ 0x00000000 0x00000000 (by decide) (by decide)]
  simp

theorem gethl (index : BitVec 8) : Statement (.gethl index) := by
  refine ⟨⟨.GETHL, .control, 0x3300000000000000, 0xFF00FFFFFFFFFFFF⟩, by decide, ?_, by simp [operands, encode], rfl⟩
  rw [encode, packWord_eq, accepts_joinFields _ _ _ _ _ 0xFF 0x00 0xFF 0xFF 0x33 0x00 0x00 0x00 _ 0xFFFFFFFF 0x00000000 (by decide) (by decide)]
  simp

theorem render (ch : BitVec 8) (n : Word) : Statement (.render ch n) := by
  refine ⟨⟨.RENDER, .render, 0x4000000000000000, 0xFF00FFFF00000000⟩, by decide, ?_, by simp [operands, encode], rfl⟩
  rw [encode, packWord_eq, accepts_joinFields _ _ _ _ _ 0xFF 0x00 0xFF 0xFF 0x40 0x00 0x00 0x00 _ 0x00000000 0x00000000 (by decide) (by decide)]
  simp

end Sys2Proof.Laws.RowOfEncode
end

