-- ==== Sys2Proof/Laws/Pool.lean ====
section
/-! SUPPORT. What keeps the voice pool sound (R59 (a) to (c)): one lemma for each operation on a slot and for each event. -/

namespace Sys2Proof.Machine

/-- Two slots clash when both sound and hold one note. -/
theorem clashes_iff (v w : Voice) : v.clashes w = false ↔ ¬ (v.stage ≠ .idle ∧ w.stage ≠ .idle ∧ v.note = w.note) := by
  simp only [Voice.clashes, Voice.sounding, ← Bool.not_eq_true, Bool.and_eq_true, beq_iff_eq, bne_iff_ne, and_assoc, ne_eq]

/-- A change of slots that lets no slot sound a note it did not sound. -/
theorem pairwise_map_quiet (f : Voice → Voice) (vs : List Voice)
    (hf : ∀ v ∈ vs, (f v).stage ≠ .idle → v.stage ≠ .idle ∧ (f v).note = v.note)
    (h : vs.Pairwise (fun v w => v.clashes w = false)) : (vs.map f).Pairwise (fun v w => v.clashes w = false) := by
  rw [List.pairwise_map]
  refine List.Pairwise.imp_of_mem ?_ h
  intro a b ha hb hab
  rw [clashes_iff] at hab ⊢
  rintro ⟨h1, h2, h3⟩
  have e1 := hf a ha h1
  have e2 := hf b hb h2
  exact hab ⟨e1.1, e2.1, by rw [← e1.2, ← e2.2, h3]⟩

/-- A change of every slot that keeps each sound and lets none sound a new note keeps the pool sound. -/
theorem Pool.Ok.map {nv : Nat} {pl : Pool} (h : pl.Ok nv) (f : Voice → Voice) (p : Bool) (n : Word)
    (hok : ∀ v ∈ pl.voices, (f v).Ok)
    (hf : ∀ v ∈ pl.voices, (f v).stage ≠ .idle → v.stage ≠ .idle ∧ (f v).note = v.note) :
    Pool.Ok nv ⟨pl.voices.map f, p, n⟩ where
  slots := by simpa using h.slots
  sound := by
    intro v hv
    obtain ⟨w, hw, rfl⟩ := List.mem_map.1 hv
    exact hok w hw
  unique := pairwise_map_quiet f _ hf h.unique

/-- EnterRelease keeps a slot sound (R176). -/
theorem Voice.Ok.enterRelease {v : Voice} (h : v.Ok) (b : Bank) (sr : Word) : (enterRelease b sr v).Ok := by
  obtain ⟨h1, h2, h3, h4, h5⟩ := enterRelease_bounds b sr v
  refine ⟨h4.trans h.level_le, h5.trans h.level_le, ?_, ?_, ?_⟩
  · intro hi; rw [h1] at hi; cases hi
  · intro hi; rw [h1] at hi; cases hi
  · intro hs; rw [h2] at hs; cases hs

/-- The stage transitions keep a slot sound (R172). -/
theorem Voice.Ok.stageTransition {v : Voice} (h : v.Ok) (r : BlockRate) (hr : r.susLvl.toNat ≤ envOne) : (stageTransition r v).Ok := by
  have ea : (endAttack r v).Ok := by
    unfold endAttack; split
    · rename_i hc
      refine ⟨by simp [envOne], h.relStep_le, by simp, by simp, by intro hs; exact .inr (.inl rfl)⟩
    · exact h
  have ed : (endDecay r (endAttack r v)).Ok := by
    generalize Sys2Proof.Machine.endAttack r v = v at *
    unfold endDecay; split
    · refine ⟨hr, ea.relStep_le, by simp, by simp, by intro hs; exact .inr (.inr rfl)⟩
    · exact ea
  have es : (holdSustain r (endDecay r (endAttack r v))).Ok := by
    generalize Sys2Proof.Machine.endDecay r (Sys2Proof.Machine.endAttack r v) = v at *
    unfold holdSustain; split
    · rename_i hs
      refine ⟨hr, ed.relStep_le, by simp [hs], by simp [hs], by intro _; simp [hs]⟩
    · exact ed
  unfold Machine.stageTransition
  generalize Sys2Proof.Machine.holdSustain r (Sys2Proof.Machine.endDecay r (Sys2Proof.Machine.endAttack r v)) = v at *
  unfold endRelease; split
  · rename_i hs
    exact ⟨es.level_le, by simp [envOne], fun _ => hs.2, fun _ => rfl, by simp⟩
  · exact es

/-- The stage transitions change no note and start no slot (R172). -/
theorem stageTransition_quiet (r : BlockRate) (v : Voice) :
    (stageTransition r v).note = v.note ∧ ((stageTransition r v).stage ≠ .idle → v.stage ≠ .idle) := by
  obtain ⟨st, n, ve, f, ph, lev, rs, su, se⟩ := v
  constructor
  · simp only [stageTransition, endAttack, endDecay, holdSustain, endRelease]; split_ifs <;> rfl
  · intro h; rintro rfl; exact h (by simp [stageTransition, endAttack, endDecay, holdSustain, endRelease])

/-- The level update keeps a slot sound (R174). -/
theorem Voice.Ok.envStep {v : Voice} (h : v.Ok) (r : BlockRate) (hr : r.susLvl.toNat ≤ envOne) : (envStep r v).Ok := by
  have hl := h.level_le
  simp only [envOne] at hl hr
  refine ⟨?_, by simpa using h.relStep_le, ?_, by simpa using h.idle_free, by simpa using h.held_stage⟩
  · rcases hs : v.stage
    · simpa [Machine.envStep, hs, envOne] using hl
    · rw [envStep_attack_level r v hs]; simp [envOne]
    · rw [envStep_decay_level r v hs]; simp only [envOne]; omega
    · simpa [Machine.envStep, hs, envOne] using hl
    · rw [envStep_release_level r v hs]; simp only [envOne]; omega
  · intro hi; rw [envStep_stage] at hi; simpa [Machine.envStep, hi] using h.idle_level hi

/-- An index that answers is in range. -/
theorem getElem?_lt {vs : List Voice} {i : Nat} {v : Voice} (h : vs[i]? = some v) : i < vs.length :=
  (List.getElem?_eq_some_iff.1 h).1

/-- Setting one slot to a voice that no other slot clashes with. -/
theorem Pool.Ok.set {nv : Nat} {pl : Pool} (h : pl.Ok nv) (i : Nat) (x : Voice) (p : Bool) (n : Word) (hx : x.Ok)
    (hc : ∀ j w, j ≠ i → pl.voices[j]? = some w → x.clashes w = false ∧ w.clashes x = false) :
    Pool.Ok nv ⟨pl.voices.set i x, p, n⟩ where
  slots := by simpa using h.slots
  sound := by
    intro v hv
    rcases List.mem_or_eq_of_mem_set hv with hv | rfl
    · exact h.sound v hv
    · exact hx
  unique := by
    rw [List.pairwise_iff_getElem]
    intro a b ha hb hab
    have hu := List.pairwise_iff_getElem.1 h.unique
    simp only [List.length_set] at ha hb
    simp only [List.getElem_set]
    split_ifs with h1 h2 h2
    · omega
    · exact (hc b _ (by omega) (by simp [hb])).1
    · exact (hc a _ (by omega) (by simp [ha])).2
    · exact hu a b ha hb hab

/-- A slot sounds the note. -/
theorem playing_iff (note : BitVec 7) (w : Voice) : w.playing note = true ↔ w.stage ≠ .idle ∧ w.note = note := by
  simp [Voice.playing, Voice.sounding]

/-- A PLAY keeps the pool sound (R134, R136). -/
theorem Pool.Ok.applyPlay {nv : Nat} {pl : Pool} (h : pl.Ok nv) (note vel : BitVec 7) (freq : Word) :
    (applyPlay note vel freq pl).Ok nv := by
  unfold Machine.applyPlay
  split
  · rename_i i hi
    obtain ⟨v, hv, hcase⟩ := chooseSlot_cases _ _ _ _ hi
    have hilt := getElem?_lt hv
    refine h.set i _ _ _ ⟨by simp [startedVoice, Voice.reset, envOne], by simp [startedVoice, Voice.reset, envOne], by simp [startedVoice], by simp [startedVoice], by simp [startedVoice, Voice.reset]⟩ ?_
    intro j w hj hw
    have hjlt := getElem?_lt hw
    have key : ¬ (w.stage ≠ .idle ∧ w.note = note) := by
      rcases hcase with ⟨hp, -⟩ | ⟨hno, -⟩ | ⟨hno, -⟩ | ⟨hno, -⟩
      · rintro ⟨h1, h2⟩
        have hp' := (playing_iff _ _).1 hp
        have hu := List.pairwise_iff_getElem.1 h.unique
        have ev : pl.voices[i] = v := (List.getElem?_eq_some_iff.1 hv).2
        have ew : pl.voices[j] = w := (List.getElem?_eq_some_iff.1 hw).2
        rcases Nat.lt_or_gt_of_ne hj with hlt | hlt
        · have := hu j i hjlt hilt hlt
          rw [clashes_iff, ev, ew] at this; exact this ⟨h1, hp'.1, by rw [h2, hp'.2]⟩
        · have := hu i j hilt hjlt hlt
          rw [clashes_iff, ev, ew] at this; exact this ⟨hp'.1, h1, by rw [h2, hp'.2]⟩
      · rw [← playing_iff, hno w (List.mem_of_getElem? hw)]; simp
      · rw [← playing_iff, (hno w (List.mem_of_getElem? hw)).1]; simp
      · rw [← playing_iff, (hno w (List.mem_of_getElem? hw)).1]; simp
    rw [clashes_iff, clashes_iff]
    exact ⟨fun ⟨_, h2, h3⟩ => key ⟨h2, h3.symm⟩, fun ⟨h1, _, h3⟩ => key ⟨h1, h3⟩⟩
  · exact h

/-- A STOP keeps the pool sound (R137). -/
theorem Pool.Ok.applyStop {nv : Nat} {pl : Pool} (h : pl.Ok nv) (b : Bank) (sr : Word) (note : BitVec 7) (imm : Bool) :
    (applyStop b sr note imm pl).Ok nv := by
  unfold Machine.applyStop
  split
  · rename_i i hi
    obtain ⟨hlt, hp, -⟩ := List.findIdx?_eq_some_iff_getElem.1 hi
    have hp := (playing_iff _ _).1 hp
    have hv := h.sound _ (List.getElem_mem hlt)
    have em : pl.voices.modify i (stopVoice b sr pl.pedal imm) = pl.voices.set i (stopVoice b sr pl.pedal imm pl.voices[i]) := by
      apply List.ext_getElem?; intro j
      simp only [List.getElem?_modify, List.getElem?_set]
      by_cases hij : i = j
      · subst hij; simp [hlt]
      · simp [hij]
    rw [em]
    generalize hx : pl.voices[i] = v at *
    have hstop : (stopVoice b sr pl.pedal imm v).Ok ∧ (stopVoice b sr pl.pedal imm v).note = v.note := by
      unfold stopVoice; split_ifs with h1 h2 h3
      · exact ⟨⟨by simp [cutVoice, envOne], by simp [cutVoice, envOne], fun _ => rfl, fun _ => rfl, by simp [cutVoice]⟩, rfl⟩
      · exact ⟨hv, rfl⟩
      · refine ⟨⟨hv.level_le, hv.relStep_le, hv.idle_level, fun hs => absurd hs hp.1, fun _ => ?_⟩, rfl⟩
        show v.stage = _ ∨ _
        rcases hs : v.stage <;> simp_all
      · exact ⟨hv.enterRelease b sr, (enterRelease_bounds b sr v).2.2.1⟩
    refine h.set i _ _ _ hstop.1 ?_
    intro j w hj hw
    have hjlt := getElem?_lt hw
    have ew : pl.voices[j] = w := (List.getElem?_eq_some_iff.1 hw).2
    have hu := List.pairwise_iff_getElem.1 h.unique
    have key : ¬ (w.stage ≠ .idle ∧ w.note = v.note) := by
      rintro ⟨h1, h2⟩
      rcases Nat.lt_or_gt_of_ne hj with hl | hl
      · have := hu j i hjlt hlt hl
        rw [clashes_iff, hx, ew] at this; exact this ⟨h1, hp.1, h2⟩
      · have := hu i j hlt hjlt hl
        rw [clashes_iff, hx, ew] at this; exact this ⟨hp.1, h1, h2.symm⟩
    rw [clashes_iff, clashes_iff, hstop.2]
    exact ⟨fun ⟨_, h2, h3⟩ => key ⟨h2, h3.symm⟩, fun ⟨h1, _, h3⟩ => key ⟨h1, h3⟩⟩
  · exact h

/-- A PEDAL keeps the pool sound (R139). -/
theorem Pool.Ok.applyPedal {nv : Nat} {pl : Pool} (h : pl.Ok nv) (b : Bank) (sr : Word) (down : Bool) :
    (applyPedal b sr down pl).Ok nv := by
  unfold Machine.applyPedal
  split
  · refine h.map _ _ _ ?_ ?_
    · intro v hv; unfold releaseHeld; split
      · exact (h.sound v hv).enterRelease b sr
      · exact h.sound v hv
    · intro v hv; unfold releaseHeld; split
      · rename_i hs
        intro _; refine ⟨?_, (enterRelease_bounds b sr v).2.2.1⟩
        intro hi; have := (h.sound v hv).idle_free hi; simp [hs] at this
      · exact fun h => ⟨h, rfl⟩
  · exact ⟨h.slots, h.sound, h.unique⟩

/-- Draining the queue keeps the pool sound (R133, R219). -/
theorem Pool.Ok.applyEvents {nv : Nat} (b : Bank) (sr : Word) (es : List Event) {pl : Pool} (h : pl.Ok nv) :
    (applyEvents b sr es pl).Ok nv := by
  induction es generalizing pl with
  | nil => exact h
  | cons e es ih =>
    refine ih (pl := applyEvent b sr pl e) ?_
    unfold applyEvent; split
    · exact h.applyPlay ..
    · exact h.applyStop ..
    · exact h.applyPedal ..
end Sys2Proof.Machine
end

