-- ==== Sys2Proof/Laws/Step.lean ====
section
/-! SUPPORT. What a step can do, said once: one case per turn and per outcome of its fetch. Later proofs about `step` cite
`step_cases` and do not unfold it. -/

namespace Sys2Proof.Machine

/-- The whole of what one step can do. -/
theorem step_cases (s : State) :
    (nextTurn s = .control ∧ s.cIn = [] ∧ step s = .next (takeTurn s)) ∨
    (∃ w ws i, nextTurn s = .control ∧ s.cIn = w :: ws ∧ decodeAt .control w = .ok i ∧
      step s = exec i { takeTurn s with cIn := ws }) ∨
    (∃ w ws e, nextTurn s = .control ∧ s.cIn = w :: ws ∧ decodeAt .control w = .error e ∧
      step s = .next (raise .badCmd { takeTurn s with cIn := ws })) ∨
    (nextTurn s = .audio ∧ (s.rendering = true ∨ s.rIn = []) ∧ step s = .next (takeTurn s)) ∨
    (∃ w ws i, nextTurn s = .audio ∧ s.rendering = false ∧ s.rIn = w :: ws ∧ decodeAt .render w = .ok i ∧
      step s = exec i { takeTurn s with rIn := ws }) ∨
    (∃ w ws e, nextTurn s = .audio ∧ s.rendering = false ∧ s.rIn = w :: ws ∧ decodeAt .render w = .error e ∧
      step s = .next (raise .badCmd { takeTurn s with rIn := ws })) ∨
    (nextTurn s = .engine ∧ step s = .next (engineStep (takeTurn s))) ∨
    (nextTurn s = .reset ∧ step s = .next (hardReset (takeTurn s))) := by
  have hs : step s = runTurn (nextTurn s) (takeTurn s) := rfl
  rcases ht : nextTurn s with _ | _ | _ | _
  · rw [ht] at hs
    rcases hc : s.cIn with _ | ⟨w, ws⟩
    · simp [hs, runTurn, fetchControl, runPort, hc]
    · rcases hd : decodeAt .control w with e | i
      · simp [hs, runTurn, fetchControl, runPort, runWord, discardWord, hc, hd]
      · simp [hs, runTurn, fetchControl, runPort, runWord, hc, hd]
  · rw [ht] at hs
    cases hr : s.rendering
    · rcases hc : s.rIn with _ | ⟨w, ws⟩
      · simp [hs, runTurn, fetchRender, runPort, hc, hr]
      · rcases hd : decodeAt .render w with e | i
        · simp [hs, runTurn, fetchRender, runPort, runWord, discardWord, hc, hd, hr]
        · simp [hs, runTurn, fetchRender, runPort, runWord, hc, hd, hr]
    · simp [hs, runTurn, fetchRender, runPort, hr]
  · rw [ht] at hs; simp [hs, runTurn]
  · rw [ht] at hs; simp [hs, runTurn]

/-- What one engine step can do (R216). -/
theorem engineStep_cases (s : State) :
    (s.rendering = false ∧ engineStep s = s) ∨
    (s.rendering = true ∧ s.seq.left = 0 ∧ engineStep s = chunkStart s) ∨
    (s.rendering = true ∧ 0 < s.seq.left ∧ engineStep s = sampleStep s) := by
  unfold engineStep
  cases hr : s.rendering
  · simp
  · by_cases hl : s.seq.left = 0
    · simp [hl]
    · simp [hl, Nat.pos_of_ne_zero hl]

/-- A run of `k + 1` steps whose first step answers a next state. -/
theorem run_succ {k : Nat} {s t : State} (h : step s = .next t) :
    Host.Core.run core (k + 1) s = Host.Core.run core k t := by
  have h' : core.step s = .next t := h
  simp only [Host.Core.run, h']

end Sys2Proof.Machine
end

