-- ==== Sys2Proof/Machine/HostText.lean ====
section
/-! DEFINITION. Host software, outside the device (R5 (b)): the conversions of R112, the document's operations as commands (R114) and
the text form of a command (R113). No operation of the machine uses this file (DEDUCED, log entry 18); it is here to read the examples with. -/

namespace Sys2Proof.Machine

/-- `round`: to nearest, ties away from zero (R112). -/
def roundAway (x : Rat) : Int := if 0 ≤ x then (x + 1 / 2).floor else -((-x + 1 / 2).floor)

/-- `hz(x) = sec(x) = u16_16(x) = sat_u32(round(x * 65536))`, a negative x giving 0 (R112). -/
def hostU16 (x : Rat) : Word := BitVec.ofNat 32 (min (roundAway (x * 65536)).toNat (2 ^ 32 - 1))

/-- `q16_16(x)`: two's complement of the rounded and clamped value (R112). -/
def hostQ16 (x : Rat) : Word := BitVec.ofInt 32 (max (-2 ^ 31) (min (roundAway (x * 65536)) (2 ^ 31 - 1)))

/-- `lvl(x) = clamp(round(x * 32768), 0, 32768)` (R112). -/
def hostLevel (x : Rat) : Word := BitVec.ofNat 32 (min (roundAway (x * 32768)).toNat 32768)

/-- `playNote(n, v, f)` (R114). -/
def hostPlayNote (note vel : BitVec 7) (f : Rat) : Instr := .play note vel (hostU16 f)

/-- `setDrawBar(i, x)`: nothing if `i` does not fit the field (R106, R114). -/
def hostSetDrawBar (i : Nat) (x : Rat) : Option Instr :=
  if i < 256 then some (.setdb (BitVec.ofNat 8 i) (hostLevel x)) else none

/-- `setHarmonicLevel(i, x)`: nothing if `i` does not fit the field (R106, R114). -/
def hostSetHarmonicLevel (i : Nat) (x : Rat) : Option Instr :=
  if i < 256 then some (.sethl (BitVec.ofNat 8 i) (hostLevel x)) else none

/-- `setLeslieSpeed(x)` (R114). -/
def hostSetLeslieSpeed (x : Rat) : Instr := .wrp 0x0C (hostU16 x)

/-- An operand in decimal. -/
def operandText {w : Nat} (x : BitVec w) : String := toString x.toNat

/-- A one-bit operand. -/
def flagText (f : Bool) : String := if f then "1" else "0"

/-- The text form of a command: the mnemonic, then its operands in the order A, B, D (R113). -/
def commandText : Instr → String
  | .init sr => "INIT " ++ operandText sr
  | .deinit => "DEINIT"
  | .rdstat => "RDSTAT"
  | .play note vel freq => "PLAY " ++ operandText note ++ ", " ++ operandText vel ++ ", " ++ operandText freq
  | .stop note imm => "STOP " ++ operandText note ++ ", " ++ flagText imm
  | .pedal down => "PEDAL " ++ flagText down
  | .wrp reg value => "WRP " ++ operandText reg ++ ", " ++ operandText value
  | .rdp reg => "RDP " ++ operandText reg
  | .setdb index value => "SETDB " ++ operandText index ++ ", " ++ operandText value
  | .getdb index => "GETDB " ++ operandText index
  | .sethl index value => "SETHL " ++ operandText index ++ ", " ++ operandText value
  | .gethl index => "GETHL " ++ operandText index
  | .render ch n => "RENDER " ++ operandText ch ++ ", " ++ operandText n

end Sys2Proof.Machine
end

