-- ==== Sys2Proof/Tests/Slice0.lean ====
section
/-! SUPPORT. Tests. Every expected value is the spec's: a rule's example or a vector of spec/95_test_vectors.md, named in the
docstring. The theorems `witness_…` meet the hypotheses of a statement at a concrete state, one for each clause. -/

namespace Sys2Proof.Tests

-- One test at a time: many kernel evaluations at once wait in one thread each.
set_option Elab.async false

open Sys2Proof Sys2Proof.Machine

/-! ### Helpers -/

/-- Two slots, a queue of two events, otherwise the defaults. -/
def small : Params := { defaultParams with nv := 2, evqDepth := 2 }

/-- A device that is not initialised. -/
def cold : State := State.atReset small

/-- A device initialised at 44100 Hz. -/
def warm : State := { cold with inited := true, sr := 44100, vibInc := 486957 }

/-- Two events, a full queue for `small`. -/
def twoEvents : List Event := [⟨.play, 60, 100, 0x0105A148⟩, ⟨.stop, 60, 1, 0⟩]

/-- A device with a full queue. -/
def full : State := { warm with evq := twoEvents }

/-- A slot that sounds. -/
def sounding (stage : Stage) (note : BitVec 7) (level : BitVec 31) (serial : Word) : Voice :=
  { Voice.reset with stage := stage, note := note, vel := 100, freq := 0x0105A148, level := level, serial := serial }

/-- Note 60 in Attack, note 62 in Release. -/
def twoVoices : Pool := ⟨[sounding .attack 60 1558407 0, { sounding .release 62 9048 1 with relStep := 9048 }], false, 2⟩

/-- A live chunk of a RENDER of one channel, two samples left of it. -/
def live : State :=
  { warm with rendering := true, pool := twoVoices, renderNo := 1, seq := ⟨1, 2, 3, 2, true⟩,
              out := [(outAddr 1 2 0, 5)], sched := [.engine] }

/-- The next state of an answer. -/
def after (r : Result) : Option State :=
  match r with
  | .next s => some s
  | .fault _ => none
  | .refused _ => none

/-- The next state of an answer, or the state before. -/
def thenState (r : Result) (s : State) : State := (after r).getD s

/-! ### Well-formedness: what each check refuses -/

/-- R110: RENDER at the C-port. -/
theorem test_wellFormed_refuses_render_at_control : ¬ (Instr.render 1 512).WellFormedOn .control := by decide
/-- R110: PLAY at the R-port. -/
theorem test_wellFormed_refuses_play_at_render : ¬ (Instr.play 60 100 0).WellFormedOn .render := by decide
/-- R7: NV = 0, NV = 257. -/
theorem test_wellFormed_refuses_nv : ¬ ({ small with nv := 0 } : Params).nvOk ∧ ¬ ({ small with nv := 257 } : Params).nvOk := by
  decide
/-- R7: EVQ_DEPTH = 0. -/
theorem test_wellFormed_refuses_evqDepth : ¬ ({ small with evqDepth := 0 } : Params).evqDepthOk := by decide
/-- R7: SR_MIN = 0, SR_MIN > SR_MAX, SR_MAX = 2^32. -/
theorem test_wellFormed_refuses_sr :
    ¬ ({ small with srMin := 0 } : Params).srOk ∧ ¬ ({ small with srMin := 9, srMax := 8 } : Params).srOk ∧
      ¬ ({ small with srMax := 2 ^ 32 } : Params).srOk := by decide
/-- R7, R156: 255 sine entries; each property of the table refused alone, on a table that has the others. -/
theorem test_wellFormed_refuses_sine :
    ¬ ({ small with sine := sineTable.take 255 } : Params).sineOk ∧
      ¬ ({ small with sine := sineTable.set 10 32768 } : Params).sineRangeOk ∧
      ¬ ({ small with sine := sineTable.set 0 1 } : Params).sinePointsOk ∧
      ¬ ({ small with sine := sineTable.set 128 1 } : Params).sinePointsOk ∧
      ¬ ({ small with sine := sineTable.set 64 32766 } : Params).sinePointsOk ∧
      ¬ ({ small with sine := sineTable.set 192 (-32766) } : Params).sinePointsOk := by decide +kernel
/-- R156: an entry that breaks the mirror symmetry only (with its negative), and one that breaks the odd symmetry only. -/
theorem test_wellFormed_refuses_asymmetric_sine :
    (¬ ({ small with sine := (sineTable.set 10 0).set 138 0 } : Params).sineMirrorOk ∧
        ({ small with sine := (sineTable.set 10 0).set 138 0 } : Params).sineOddOk) ∧
      (¬ ({ small with sine := sineTable.set 138 0 } : Params).sineOddOk ∧
        ({ small with sine := sineTable.set 138 0 } : Params).sineMirrorOk) := by decide +kernel
/-- R7: eight drawbar ratios, a ratio of 0, a ratio of 256. -/
theorem test_wellFormed_refuses_drawbar :
    ¬ ({ small with drawbarMult2 := List.replicate 8 1 } : Params).drawbarOk ∧
      ¬ ({ small with drawbarMult2 := List.replicate 9 0 } : Params).drawbarOk ∧
      ¬ ({ small with drawbarMult2 := List.replicate 9 256 } : Params).drawbarOk := by decide
/-- R7: LESLIE_DEPTH = 0x8001. -/
theorem test_wellFormed_refuses_leslieDepth : ¬ ({ small with leslieDepth := 0x8001 } : Params).leslieDepthOk := by decide
/-- R7: POWER_MAX not a multiple of 0x10000, 0, above 0xFF0000. -/
theorem test_wellFormed_refuses_powerMax :
    ¬ ({ small with powerMax := 0x18000 } : Params).powerMaxOk ∧ ¬ ({ small with powerMax := 0 } : Params).powerMaxOk ∧
      ¬ ({ small with powerMax := 0x1000000 } : Params).powerMaxOk := by decide
/-- R7, R156: the defaults meet every constraint, and so does the small device. -/
theorem test_wellFormed_defaults : defaultParams.WellFormed ∧ small.WellFormed := by decide +kernel

/-! ### Decoding: the words of the spec -/

/-- E1. -/
theorem test_decode_init : decodeAt .control 0x010000000000AC44 = .ok (.init 44100) := by decide
/-- E4. -/
theorem test_decode_deinit : decodeAt .control 0x0200000000000000 = .ok .deinit := by decide
/-- E5. -/
theorem test_decode_rdstat : decodeAt .control 0x0300000000000000 = .ok .rdstat := by decide
/-- E6, E8: PLAY at ordinary and at maximal operands. -/
theorem test_decode_play :
    decodeAt .control 0x103C64000105A148 = .ok (.play 60 100 0x0105A148) ∧
      decodeAt .control 0x107F7F00FFFFFFFF = .ok (.play 127 127 0xFFFFFFFF) := by decide
/-- E10, E12. -/
theorem test_decode_stop :
    decodeAt .control 0x113C000000000000 = .ok (.stop 60 false) ∧
      decodeAt .control 0x117F010000000000 = .ok (.stop 127 true) := by decide
/-- E13, E14. -/
theorem test_decode_pedal :
    decodeAt .control 0x1200010000000000 = .ok (.pedal true) ∧ decodeAt .control 0x1200000000000000 = .ok (.pedal false) := by
  decide
/-- E16, E17. -/
theorem test_decode_wrp :
    decodeAt .control 0x200C00000008C000 = .ok (.wrp 0x0C 0x0008C000) ∧
      decodeAt .control 0x20000000FFFF8000 = .ok (.wrp 0x00 0xFFFF8000) := by decide
/-- E18. -/
theorem test_decode_rdp : decodeAt .control 0x210F000000000000 = .ok (.rdp 0x0F) := by decide
/-- E21. -/
theorem test_decode_setdb : decodeAt .control 0x3008000000004000 = .ok (.setdb 8 0x4000) := by decide
/-- E22. -/
theorem test_decode_getdb : decodeAt .control 0x3108000000000000 = .ok (.getdb 8) := by decide
/-- E24. -/
theorem test_decode_sethl : decodeAt .control 0x320F000000008000 = .ok (.sethl 15 0x8000) := by decide
/-- E25. -/
theorem test_decode_gethl : decodeAt .control 0x3303000000000000 = .ok (.gethl 3) := by decide
/-- E26, E29: RENDER at ordinary and at maximal operands. -/
theorem test_decode_render :
    decodeAt .render 0x4001000000000200 = .ok (.render 1 512) ∧
      decodeAt .render 0x40FF0000FFFFFFFF = .ok (.render 255 0xFFFFFFFF) := by decide

/-- E30, E31: reserved opcodes. -/
theorem test_decode_refuses_reserved_opcodes :
    decodeAt .control 0 = .error .reservedOpcode ∧ decodeAt .control 0xFF00000000000000 = .error .reservedOpcode := by decide
/-- E32 to E39: a must-be-zero bit set. -/
theorem test_decode_refuses_reserved_bits :
    [0x103C80000105A148#64, 0x1180000000000000#64, 0x113C020000000000#64, 0x1201010000000000#64, 0x103C64010105A148#64,
        0x0200000000000001#64, 0x2105000000000001#64, 0x010100000000AC44#64].map (decodeAt .control) =
      List.replicate 8 (.error .reservedBits) := by decide +kernel
/-- E40, E41, E42: the wrong port, and a RENDER with B set. -/
theorem test_decode_refuses_wrong_port :
    decodeAt .control 0x4001000000000200 = .error .wrongPort ∧ decodeAt .render 0x103C64000105A148 = .error .wrongPort ∧
      decodeAt .render 0x4001010000000200 = .error .reservedBits := by decide
/-- R80: seven bytes are no word. -/
theorem test_decodeBytes_refuses_seven_bytes : decodeBytes .control [1, 2, 3, 4, 5, 6, 7] = .error .notOneWord := by decide
/-- The table's numbering: bit 0 is the least significant bit of the 64-bit word. -/
theorem test_decodeTableWord : decodeTableWord 64 0x113C010000000000 = some (.stop 60 true) := by decide +kernel

/-! ### Steps -/

/-- withFetchWord: the very next step runs the word, at either port. -/
theorem test_withFetchWord_runs_the_word :
    (after (step (State.reset.withFetchWord 64 0x010000000000AC44))).map (fun s => (s.inited, s.sr, s.cIn)) =
        some (true, 44100, []) ∧
      (after (step (State.reset.withFetchWord 64 0x4001000000000200))).map (fun s => (s.rendering, s.seq.rem, s.rIn)) =
        some (true, 512, []) := by decide +kernel
/-- E40 on a reset device: BADCMD only. -/
theorem test_step_discards_an_illegal_word :
    (after (step { cold with cIn := [0x4001000000000200], sched := [.control] })).map
        (fun s => (s.flags, s.rendering, s.resp, s.cIn)) = some (⟨true, false, false, false⟩, false, [], []) := by decide +kernel
/-- R301: a reset during a RENDER abandons it and keeps what was written. -/
theorem test_step_reset_abandons_a_render :
    (after (step { live with sched := [.reset] })).map (fun s => (s.rendering, s.inited, s.out)) =
      some (false, false, live.out) := by decide +kernel

/-! ### The commands -/

/-- R54, O12: `INIT 44100` answers 0 with vibInc 486957. -/
theorem test_init_succeeds :
    (after (exec (.init 44100) cold)).map (fun s => (s.inited, s.sr, s.vibInc.toNat, s.initStat, s.resp)) =
      some (true, 44100, 486957, 0, [0]) := by decide +kernel
/-- R264: `INIT 7999` on a reset device is refused with status 1. -/
theorem test_init_refuses_a_low_rate :
    (after (exec (.init 7999) cold)).map (fun s => (s.inited, s.initStat, s.resp)) = some (false, 1, [1]) := by decide +kernel
/-- R262. -/
theorem test_deinit : (after (exec .deinit warm)).map (fun s => (s.inited, s.sr, s.flags.notInit)) = some (false, 44100, false) := by
  decide +kernel
/-- R264: bit 0 and bit 5 after an INIT and a `SETDB 9`. -/
theorem test_rdstat :
    (after (exec .rdstat (thenState (exec (.setdb 9 0) warm) warm))).map (fun s => s.resp) = some [0x21] := by decide +kernel
/-- R130, N1. -/
theorem test_play :
    (after (exec (.play 60 100 0x0105A148) warm)).map (fun s => (s.evq, s.pool.noteSerial)) =
      some ([⟨.play, 60, 100, 0x0105A148⟩], 0) := by decide +kernel
/-- R79: a full queue loses the event with EVQOVF. -/
theorem test_play_overflow :
    (after (exec (.play 64 100 0) full)).map (fun s => (s.evq == twoEvents, s.flags.evqOvf)) = some (true, true) := by
  decide +kernel
/-- R131. -/
theorem test_stop : (after (exec (.stop 60 true) warm)).map State.evq = some [⟨.stop, 60, 1, 0⟩] := by decide +kernel
/-- R132. -/
theorem test_pedal : (after (exec (.pedal true) warm)).map State.evq = some [⟨.pedal, 0, 1, 0⟩] := by decide +kernel
/-- R240: every bit is stored, the active bank waits for a PREP. -/
theorem test_wrp :
    (after (exec (.wrp 0x0C 0x0008C000) warm)).map (fun s => (s.shadow.p[12], s.active.p[12])) = some (0x0008C000, 0x10000) := by
  decide +kernel
/-- R41: SRATE is read-only. -/
theorem test_wrp_srate : (after (exec (.wrp 0x0F 1) warm)).map (fun s => (s.sr, s.flags.badIdx)) = some (44100, true) := by
  decide +kernel
/-- R241: MASTERVOL, SRATE. -/
theorem test_rdp :
    (after (exec (.rdp 0x02) warm)).map State.resp = some [0x8000] ∧ (after (exec (.rdp 0x0F) warm)).map State.resp = some [0xAC44] := by
  decide +kernel
/-- R241: an unassigned number. -/
theorem test_rdp_unassigned : (after (exec (.rdp 0x0D) warm)).map (fun s => (s.resp, s.flags.badIdx)) = some ([0], true) := by
  decide +kernel
/-- R242. -/
theorem test_setdb :
    (after (exec (.setdb 0 0x8000) { warm with shadow := { warm.shadow with mode := .harmonic } })).map
      (fun s => (s.shadow.db, s.shadow.mode)) = some (#v[0x8000, 0, 0x8000, 0, 0, 0, 0, 0, 0], .drawbar) := by decide +kernel
/-- R242: a discarded SETDB leaves the mode. -/
theorem test_setdb_discarded :
    (after (exec (.setdb 9 1) { warm with shadow := { warm.shadow with mode := .harmonic } })).map
      (fun s => (s.shadow.mode, s.flags.badIdx)) = some (.harmonic, true) := by decide +kernel
/-- R243. -/
theorem test_getdb : (after (exec (.getdb 2) warm)).map State.resp = some [0x8000] := by decide +kernel
/-- R243. -/
theorem test_getdb_unassigned : (after (exec (.getdb 9) warm)).map (fun s => (s.resp, s.flags.badIdx)) = some ([0], true) := by
  decide +kernel
/-- R244. -/
theorem test_sethl :
    (after (exec (.sethl 1 0x4000) warm)).map (fun s => (s.shadow.hl[0], s.shadow.hl[1], s.shadow.mode)) =
      some (0x8000, 0x4000, .harmonic) := by decide +kernel
/-- R245. -/
theorem test_gethl : (after (exec (.gethl 0) warm)).map State.resp = some [0x8000] := by decide +kernel
/-- R279: a responder before INIT answers 0 with NOTINIT. -/
theorem test_gethl_notInit : (after (exec (.gethl 0) cold)).map (fun s => (s.resp, s.flags.notInit)) = some ([0], true) := by
  decide +kernel
/-- R215. -/
theorem test_render : (after (exec (.render 1 512) cold)).map (fun s => (s.rendering, s.seq)) = some (true, ⟨1, 512, 0, 0, false⟩) := by
  decide +kernel
/-- R215: a RENDER of no samples completes at acceptance. -/
theorem test_render_of_nothing : (after (exec (.render 2 0) warm)).map State.rendering = some false := by decide +kernel

/-! ### The engine -/

/-- N10: two PLAYs of one note in one drain take one slot. -/
theorem test_two_plays_one_slot :
    let pl := applyEvents Bank.reset 44100 [⟨.play, 60, 100, 7⟩, ⟨.play, 60, 50, 7⟩] (Pool.reset 4)
    (pl.voices.map Voice.stage, (pl.voices.map Voice.vel).head?, pl.noteSerial) =
      ([.attack, .idle, .idle, .idle], some 50, 2) := by decide +kernel
/-- R137, N3: a STOP releases from the current level with the step of R176. -/
theorem test_stop_releases :
    (applyEvent Bank.reset 44100 ⟨[sounding .attack 62 24934512 0], false, 1⟩ ⟨.stop, 62, 0, 0⟩).voices.map
      (fun v => (v.stage, v.relStep.toNat, v.level.toNat)) = [(.release, 9048, 24934512)] := by decide +kernel
/-- V1. -/
theorem test_envelope_constants :
    let e := envelopeConstants Bank.reset 44100 (BlockRate.reset 2)
    (e.susLvl.toNat, e.attN.toNat, e.decN.toNat, e.attStep.toNat, e.decStep.toNat) = (2 ^ 30, 689, 2756, 1558407, 0) := by
  decide +kernel
/-- O10: both saturations of the global factor. -/
theorem test_global_factor_saturates :
    globalFactor { Bank.reset with p := (Bank.reset.p.set 4 0xFFFFFFFF).set 0 0x7FFFFFFF } 0x10000 = 0xFFFFFFFF ∧
      (baseIncrement 44100 0x0105A148 0xFFFFFFFF).toNat = 3191326265 := by decide +kernel
/-- The third sample of R221's example: OscStep at phase 50961100 answers 2410. -/
theorem test_osc_step :
    oscOut small Bank.reset 12740275 { Voice.reset with phase := Voice.reset.phase.set 2 50961100 } = 2410 := by decide +kernel
/-- D5 and D6: the arithmetic shifts round toward minus infinity. -/
theorem test_distortion :
    let b : Bank := { Bank.reset with p := ((Bank.reset.p.set 9 0x1C000).set 10 0x28000).set 11 0x0C000 }
    distort small b 3000 = 8878 ∧ distort small b (-3000) = -8879 := by decide +kernel
/-- L1, L6: the ramp, and the stop exactly on the target. -/
theorem test_leslie_ramp :
    leslieRamp 65536 0x80000 (leslieStep small 44100 16) = 65583 ∧ leslieRamp 524256 0x80000 (leslieStep small 44100 16) = 524288 := by
  decide +kernel
/-- L11, L14. -/
theorem test_leslie_gain :
    leslieGain small 0x20000000 = 31569 ∧ leslieApply small 0x20000000 (-20000) = -19269 ∧ leslieGain small 0xC0000000 = 24577 := by
  decide +kernel
/-- R221's example: the third sample of a voice contributes 6. -/
theorem test_voice_out :
    voiceOut small Bank.reset 12740275
      { sounding .attack 60 3116814 0 with phase := Voice.reset.phase.set 2 50961100 } = 6 := by decide +kernel
/-- R222's examples. -/
theorem test_amplitude :
    let b : Bank := { Bank.reset with p := Bank.reset.p.set 3 16384 }
    amplitude b { Voice.reset with vel := 64 } = 24640 := by decide +kernel
/-- R226's examples: the saturation and the rounding. -/
theorem test_master :
    (master Bank.reset 40000).toInt = 32767 ∧ (master Bank.reset (-40000)).toInt = -32768 ∧
      (master { Bank.reset with p := Bank.reset.p.set 2 16384 } (-1)).toInt = -1 := by decide +kernel
/-- R112: the conversions of the examples. -/
theorem test_host_conversions : hostU16 (26163 / 100) = 0x0105A148 ∧ hostLevel (1 / 2) = 0x4000 ∧ hostQ16 (-1 / 2) = 0xFFFF8000 := by
  decide +kernel

/-! ### Witnesses -/

theorem witness_DecodeOfEncodeGivesTheCommand :
    (Instr.play 127 127 0xFFFFFFFF).WellFormedOn .control ∧ (Instr.render 255 0).WellFormedOn .render := by decide
theorem witness_EncodeOfDecodeGivesTheWord : decodeAt .render 0x40FF0000FFFFFFFF = .ok (.render 255 0xFFFFFFFF) := by decide
theorem witness_AtMostOneOpcodeRowMatches :
    ∃ r ∈ opcodeTable, r.accepts 0x107F7F00FFFFFFFF = true := ⟨_, .tail _ (.tail _ (.tail _ (.head _))), by decide⟩
/-- Both ends of every range of reserved opcodes. -/
theorem witness_ReservedOpcodesAreIllegal :
    [0x00#8, 0x04#8, 0x0F#8, 0x13#8, 0x1F#8, 0x22#8, 0x2F#8, 0x34#8, 0x3F#8, 0x41#8, 0xFF#8].map
        (fun o => decodeAt .control (packWord o 0 0 0)) = List.replicate 11 (.error .reservedOpcode) := by decide +kernel
/-- A word for each clause: Z; A or B of format L; D; bit 55; bit 47; bits 47:41; A of PEDAL; B of format P and R. -/
theorem witness_MustBeZeroBitsAreIllegal :
    [0x010000010000AC44#64, 0x0100010000000000#64, 0x1200010000000001#64, 0x1080000000000000#64, 0x103C800000000000#64,
        0x113C020000000000#64, 0x1201000000000000#64, 0x2000010000000000#64].map (decodeAt .control) =
      List.replicate 8 (.error .reservedBits) := by decide +kernel
theorem witness_CommandsAreLegalOnTheirPortOnly :
    decodeAt .render 0x4001000000000200 = .ok (.render 1 512) ∧ decodeAt .control 0x0200000000000000 = .ok .deinit ∧
      ∀ ch n, Instr.deinit ≠ .render ch n := ⟨by decide, by decide, by intros; simp⟩
theorem witness_StepRunsTheDecodedCommand_schedule : live.sched = [.engine] ∧ warm.sched = [] := ⟨rfl, rfl⟩
theorem witness_StepRunsTheDecodedCommand_control :
    let s := { warm with cIn := [0x0200000000000000], sched := [.control] }
    nextTurn s = .control ∧ s.cIn = [0x0200000000000000] ∧ decodeAt .control 0x0200000000000000 = .ok .deinit :=
  ⟨rfl, rfl, by decide⟩
theorem witness_StepRunsTheDecodedCommand_render :
    let s := { warm with rIn := [0x4001000000000200], sched := [.audio] }
    nextTurn s = .audio ∧ s.rendering = false ∧ s.rIn = [0x4001000000000200] ∧
      decodeAt .render 0x4001000000000200 = .ok (.render 1 512) := ⟨rfl, rfl, rfl, by decide⟩
theorem witness_IllegalWordsAreDiscarded_control :
    let s := { cold with cIn := [0], sched := [.control] }
    nextTurn s = .control ∧ s.cIn = [0] ∧ decodeAt .control 0 = .error .reservedOpcode := ⟨rfl, rfl, by decide⟩
theorem witness_IllegalWordsAreDiscarded_render :
    let s := { warm with rIn := [0], sched := [.audio] }
    nextTurn s = .audio ∧ s.rendering = false ∧ s.rIn = [0] ∧ decodeAt .render 0 = .error .reservedOpcode :=
  ⟨rfl, rfl, rfl, by decide⟩
theorem witness_IllegalWordsAreDiscarded_busy :
    let s := { live with rIn := [0], sched := [.audio] }
    nextTurn s = .audio ∧ s.rendering = true := ⟨rfl, rfl⟩
theorem witness_IdleTurnsChangeNothing :
    (nextTurn { warm with sched := [.control] } = .control ∧ warm.cIn = []) ∧
      (nextTurn { warm with sched := [.audio] } = .audio ∧ warm.rIn = []) ∧
      (nextTurn { warm with sched := [.engine] } = .engine ∧ warm.rendering = false) := ⟨⟨rfl, rfl⟩, ⟨rfl, rfl⟩, rfl, rfl⟩
theorem witness_EngineTakesTheEnabledStep :
    (let s := { live with seq := ⟨1, 17, 0, 0, false⟩ }; nextTurn s = .engine ∧ s.rendering = true ∧ s.seq.left = 0) ∧
      nextTurn live = .engine ∧ live.rendering = true ∧ 0 < live.seq.left := by decide +kernel
theorem witness_HardwareResetRestoresEveryItem : nextTurn { live with sched := [.reset] } = .reset := rfl
/-- One state for each of the four outcomes; for the last, the rate at both ends of its range. -/
theorem witness_InitAnswersItsStatus :
    warm.inited = true ∧ (cold.inited = false ∧ ({ cold with rendering := true } : State).rendering = true) ∧
      (cold.rendering = false ∧ (7999#32).toNat < cold.cfg.srMin ∧ cold.cfg.srMax < (192001#32).toNat) ∧
      cold.cfg.srMin ≤ (8000#32).toNat ∧ (192000#32).toNat ≤ cold.cfg.srMax ∧
      cold.cfg.vibRate.toNat * 65536 / (8000#32).toNat < 2 ^ 32 := by decide +kernel
theorem witness_DeinitClearsInited : warm.inited = true ∧ cold.inited = false := ⟨rfl, rfl⟩
/-- Room for the last event, a full queue, a device not initialised; for PLAY, STOP and PEDAL alike. -/
theorem witness_PlayQueuesOneEvent :
    (let s := { warm with evq := twoEvents.take 1 }; s.inited = true ∧ s.evq.length + 1 = s.cfg.evqDepth) ∧
      (full.inited = true ∧ full.evq.length = full.cfg.evqDepth) ∧ cold.inited = false := by decide +kernel
theorem witness_StopQueuesOneEvent :
    (warm.inited = true ∧ warm.evq.length < warm.cfg.evqDepth) ∧ (full.inited = true ∧ full.cfg.evqDepth ≤ full.evq.length) ∧
      cold.inited = false := by decide +kernel
theorem witness_PedalQueuesOneEvent :
    (warm.inited = true ∧ warm.evq.length < warm.cfg.evqDepth) ∧ (full.inited = true ∧ full.cfg.evqDepth ≤ full.evq.length) ∧
      cold.inited = false := by decide +kernel
/-- Register 0x0C is the last assigned number, 0x0D the first that is not. -/
theorem witness_WrpWritesOneRegister :
    warm.inited = true ∧ (0x0C#8).toNat ≤ 0x0C ∧ 0x0C < (0x0D#8).toNat ∧ cold.inited = false := by decide +kernel
theorem witness_RdpAnswersOneRegister :
    warm.inited = true ∧ (0x0F#8).toNat = 0x0F ∧ (0x0C#8).toNat = (12 : Fin 13).val ∧
      (0x0C < (0x0E#8).toNat ∧ (0x0E#8).toNat ≠ 0x0F) ∧ cold.inited = false := by decide +kernel
theorem witness_SetdbWritesOneDrawbar :
    warm.inited = true ∧ (8#8).toNat ≤ 8 ∧ 8 < (9#8).toNat ∧ cold.inited = false := by decide +kernel
theorem witness_GetdbAnswersOneDrawbar :
    warm.inited = true ∧ (8#8).toNat = (8 : Fin 9).val ∧ 8 < (9#8).toNat ∧ cold.inited = false := by decide +kernel
theorem witness_SethlWritesOneHarmonic :
    warm.inited = true ∧ (15#8).toNat ≤ 15 ∧ 15 < (16#8).toNat ∧ cold.inited = false := by decide +kernel
theorem witness_GethlAnswersOneHarmonic :
    warm.inited = true ∧ (15#8).toNat = (15 : Fin 16).val ∧ 15 < (16#8).toNat ∧ cold.inited = false := by decide +kernel
theorem witness_RenderIsAccepted : (1#32) ≠ 0 := by decide
/-- A RENDER of 17 samples just accepted: two chunks, nineteen turns. -/
theorem witness_RenderCompletes :
    let s := { warm with rendering := true, seq := ⟨2, 17, 0, 0, false⟩, renderNo := 1, sched := List.replicate 19 .engine }
    s.rendering = true ∧ s.seq.left = 0 ∧ s.seq.sIdx = 0 ∧ s.seq.rem.toNat = 17 ∧ 0 < 17 ∧
      s.sched = List.replicate ((17 + 15) / 16 + 17) .engine ++ [] := by decide +kernel

/-- The invariant holds in the middle of a RENDER, with a slot in Attack and one in Release. -/
theorem witness_inv_live : live.Inv where
  pool := {
    slots := by decide +kernel
    sound := by
      intro v hv
      have h : v = sounding .attack 60 1558407 0 ∨ v = { sounding .release 62 9048 1 with relStep := 9048 } := by
        simpa [live, twoVoices] using hv
      rcases h with rfl | rfl <;> exact ⟨by decide, by decide, by decide, by decide, by decide⟩
    unique := by decide +kernel }
  incs := by decide +kernel
  sustain := by decide +kernel
  rotor := by decide +kernel
  queue := by decide +kernel
  rate := by decide +kernel
  outWf := by decide +kernel
  outPast := by decide +kernel
  seq := ⟨by decide +kernel, by decide +kernel, by decide +kernel, by decide +kernel, by decide +kernel⟩

theorem witness_StepKeepsTheInvariant : live.Inv ∧ step live = .next (engineStep (takeTurn live)) := ⟨witness_inv_live, rfl⟩
theorem witness_FlagsAreStickyUntilReset :
    let s := { live with flags := ⟨true, false, false, false⟩ }
    nextTurn s ≠ .reset ∧ step s = .next (engineStep (takeTurn s)) ∧ s.flags.get .badCmd = true := ⟨by decide, rfl, rfl⟩
theorem witness_ConfigurationNeverChanges : step live = .next (engineStep (takeTurn live)) := rfl
theorem witness_RateIsFixedWhileInitialised :
    (∃ t, step live = .next t ∧ live.inited = true ∧ t.inited = true) ∧
      (∃ t, step { live with inited := false } = .next t ∧ ({ live with inited := false } : State).rendering = true) :=
  ⟨⟨_, rfl, rfl, by decide +kernel⟩, ⟨_, rfl, rfl⟩⟩
theorem witness_EachAgentWritesItsOwnState :
    (Instr.init 44100).port = .control ∧ initStatus 44100 warm ≠ 0 ∧ ∃ t, exec (.init 44100) warm = .next t :=
  ⟨rfl, by decide +kernel, _, rfl⟩
theorem witness_RespondersAnswerExactlyOnce :
    (∃ t, exec (.rdp 2) warm = .next t) ∧ (Instr.rdp 2).responds = true ∧ (∃ t, exec .deinit warm = .next t) ∧
      Instr.deinit.responds = false := ⟨⟨_, rfl⟩, rfl, ⟨_, rfl⟩, rfl⟩
theorem witness_ControlCommandsCommuteWithSamples :
    (Instr.deinit.port = .control ∧ (∀ sr, Instr.deinit ≠ .init sr) ∧ Instr.deinit ≠ .rdstat) ∧
      (Instr.init 44100).port = .control ∧ Instr.rdstat.port = .control ∧ live.rendering = true ∧ live.seq.rem ≠ 1 :=
  ⟨⟨rfl, by intro sr; simp, by decide⟩, rfl, rfl, rfl, by decide +kernel⟩
theorem witness_SilentChunksTouchNoEngineState : cold.inited = false ∧ cold.seq.live = false := ⟨rfl, rfl⟩
theorem witness_PrepDoesItsSixParts : ({ full with seq := ⟨1, 17, 0, 0, false⟩ } : State).inited = true := rfl
/-- A state for each clause: below, above and on the target. -/
theorem witness_RotorSpeedMovesByABoundedStep :
    ({ warm with shadow := { warm.shadow with p := warm.shadow.p.set 12 0x80000 } } : State).inited = true ∧
      warm.leslieCur.toNat < 8 * 65536 ∧ 1 * 65536 < ({ warm with leslieCur := 0x80000 } : State).leslieCur.toNat ∧
      warm.leslieCur.toNat = max 1 (min ((warm.shadow.p[0x0C]).toNat / 65536) 8) * 65536 := by decide +kernel
theorem witness_RotorIncrementAndVibratoOfPrep : full.inited = true := rfl
theorem witness_FrequencyChainOfPrep : full.inited = true ∧ (chunkStart full).pool.voices ≠ [] := by decide +kernel
/-- A pool for each of the four cases of the order. -/
theorem witness_PlayTakesTheSlotInOrder :
    chooseSlot 2 62 twoVoices.voices = some 1 ∧ chooseSlot 0 62 [sounding .attack 60 0 0, Voice.reset] = some 1 ∧
      chooseSlot 2 64 twoVoices.voices = some 1 ∧ chooseSlot 2 64 [sounding .attack 60 0 0, sounding .decay 62 0 1] = some 0 ∧
      twoVoices.voices ≠ [] := by decide +kernel
theorem witness_PlayStartsTheChosenSlot : chooseSlot twoVoices.noteSerial 64 twoVoices.voices = some 1 := by decide +kernel
/-- No slot on note 61; slot 0 is the first on note 60 and is in Attack, slot 1 on note 62 in Release; a release of 0 samples and one of
2756. -/
theorem witness_StopActsOnTheSoundingSlot :
    (∀ w ∈ twoVoices.voices, ¬ (w.stage ≠ .idle ∧ w.note = 61)) ∧
      twoVoices.voices[0]? = some (sounding .attack 60 1558407 0) ∧ (sounding .attack 60 1558407 0).stage ≠ .release ∧
      (twoVoices.voices[1]?.map Voice.stage = some .release) ∧ twoVoices.pedal = false ∧
      ({ twoVoices with pedal := true } : Pool).pedal = true ∧
      (Bank.reset.p[0x08]).toNat * (44100#32).toNat / 65536 = 2756 ∧
      (({ Bank.reset with p := Bank.reset.p.set 8 1 } : Bank).p[0x08]).toNat * (44100#32).toNat / 65536 = 0 := by decide +kernel
theorem witness_PedalUpReleasesTheHeldSlots :
    let v := { sounding .attack 60 5 0 with sustained := true }
    let pl : Pool := ⟨[v, Voice.reset], true, 1⟩
    pl.voices[0]? = some v ∧ pl.pedal = true ∧ v.sustained = true ∧ pl.voices[1]? = some Voice.reset ∧
      Voice.reset.sustained = false := by decide +kernel
theorem witness_PlayThenHardCutNeverSounds : twoVoices.Ok 2 := witness_inv_live.pool
/-- A slot for each clause, with the constants of the reset bank and with zero durations. -/
theorem witness_StageTransitionsOfPrep :
    let e := envelopeConstants { Bank.reset with p := Bank.reset.p.set 7 0x4000 } 44100 (BlockRate.reset 2)
    let z := envelopeConstants { Bank.reset with p := (Bank.reset.p.set 5 0).set 6 0 } 44100 (BlockRate.reset 2)
    (¬ (e.attN = 0 ∨ 2 ^ 30 ≤ (5#31).toNat) ∧ ¬ (e.decN = 0 ∨ 2 ^ 30 ≤ e.susLvl.toNat)) ∧ 2 ^ 30 ≤ (0x40000000#31).toNat ∧
      (z.attN = 0 ∧ z.decN = 0) ∧ ¬ (e.decN = 0 ∨ (0x40000000#31).toNat ≤ e.susLvl.toNat) ∧ (5#31).toNat ≤ e.susLvl.toNat := by
  decide +kernel
theorem witness_EnvelopeStepMovesTheLevel :
    (sounding .decay 60 0x40000000 0).level.toNat ≤ 2 ^ 30 ∧ (BlockRate.reset 2).susLvl.toNat ≤ 2 ^ 30 ∧
      (sounding .decay 60 0x40000000 0).stage = .decay := by decide +kernel
theorem witness_EnvelopeConstantsOfPrep :
    (Bank.reset.p[0x05]).toNat * (44100#32).toNat / 65536 ≠ 0 ∧ (Bank.reset.p[0x06]).toNat * (44100#32).toNat / 65536 ≠ 0 := by
  decide +kernel
theorem witness_ReleaseReachesSilenceInItsTime : (Bank.reset.p[0x08]).toNat * (44100#32).toNat / 65536 ≤ 2756 := by decide +kernel
theorem witness_AttackReachesFullLevelInItsTime :
    (sounding .attack 60 0 0).stage = .attack ∧ (sounding .attack 60 0 0).level.toNat ≤ 2 ^ 30 ∧
      (Bank.reset.p[0x05]).toNat * (44100#32).toNat / 65536 ≠ 0 := by decide +kernel
theorem witness_SignalPathIsBounded : live.cfg.sineRangeOk ∧ live.Inv := ⟨by decide +kernel, witness_inv_live⟩
/-- The largest depth and depth 0. -/
theorem witness_LeslieNeverAmplifies :
    (let c : Params := { small with leslieDepth := 0x8000 }; c.sineRangeOk ∧ c.leslieDepthOk) ∧
      ({ small with leslieDepth := 0 } : Params).leslieDepth = 0 := by decide +kernel
theorem witness_VelocityAmplitude :
    min (({ Bank.reset with p := Bank.reset.p.set 3 0xFFFFFFFF } : Bank).p[0x03]).toNat 32768 = 32768 ∧
      min (Bank.reset.p[0x03]).toNat 32768 = 0 ∧ ({ Voice.reset with vel := 127 } : Voice).vel = 127 := by decide +kernel
theorem witness_MasterVolumeAndSaturation :
    ({ live with active := { live.active with p := live.active.p.set 2 0 } } : State).active.p[0x02] = 0 := by decide +kernel
theorem witness_SilenceWithoutVoices : ∀ v ∈ warm.pool.voices, v.stage = .idle := by decide +kernel
/-- A live sample of one channel, with two slots that sound. -/
theorem witness_SampleStepWritesEveryChannel :
    live.out.wf ∧ 0 < live.seq.chN.toNat ∧ live.seq.live = true ∧
      (live.pool.voices.zipIdx.filter fun x => decide (x.1.stage ≠ .idle)).length = 2 := by decide +kernel
theorem witness_LiveSampleStepFrame :
    live.seq.live = true ∧ live.pool.voices[0]? = some (sounding .attack 60 1558407 0) ∧
      (sounding .attack 60 1558407 0).stage ≠ .idle := by decide +kernel

end Sys2Proof.Tests
end

section
/-! PROOFS. No step changes the configuration (O32): each command, each engine step and the reset keep it. -/

namespace Sys2Proof.Machine

/-- The lifecycle check keeps the configuration wherever the checked operation does (R279). -/
theorem whenInited_cfg {s done : State} (h : done.cfg = s.cfg) : (whenInited s done).cfg = s.cfg := by
  rcases whenInited_cases s done with ⟨-, he⟩ | ⟨-, he⟩ <;> rw [he]
  exact h

/-- The lifecycle check of a responder keeps the configuration wherever the checked operation does (R279). -/
theorem whenInitedResp_cfg {s done : State} (h : done.cfg = s.cfg) : (whenInitedResp s done).cfg = s.cfg := by
  rcases whenInitedResp_cases s done with ⟨-, he⟩ | ⟨-, he⟩ <;> rw [he]
  exact h

/-- An INIT keeps the configuration, whatever its status (R7, R260). -/
theorem execInit_next_cfg (sr : Word) (s : State) : ∃ t, execInit sr s = .next t ∧ t.cfg = s.cfg := by
  rcases execInit_cases sr s with ⟨-, he⟩ | ⟨-, he⟩
  · exact ⟨_, he, rfl⟩
  · exact ⟨_, he, by simp⟩

/-- Every command answers a next state with the configuration it found (R7). -/
theorem exec_next_cfg (i : Instr) (s : State) : ∃ t, exec i s = .next t ∧ t.cfg = s.cfg := by
  cases i with
  | init sr => exact execInit_next_cfg sr s
  | deinit => exact ⟨_, rfl, whenInited_cfg rfl⟩
  | rdstat => exact ⟨_, rfl, respond_cfg ..⟩
  | play note vel freq => exact ⟨_, rfl, whenInited_cfg (evqPush_cfg ..)⟩
  | stop note imm => exact ⟨_, rfl, whenInited_cfg (evqPush_cfg ..)⟩
  | pedal down => exact ⟨_, rfl, whenInited_cfg (evqPush_cfg ..)⟩
  | wrp reg value => exact ⟨_, rfl, whenInited_cfg (storeShadow_cfg ..)⟩
  | rdp reg => exact ⟨_, rfl, whenInitedResp_cfg (answer_cfg ..)⟩
  | setdb index value => exact ⟨_, rfl, whenInited_cfg (storeShadow_cfg ..)⟩
  | getdb index => exact ⟨_, rfl, whenInitedResp_cfg (answer_cfg ..)⟩
  | sethl index value => exact ⟨_, rfl, whenInited_cfg (storeShadow_cfg ..)⟩
  | gethl index => exact ⟨_, rfl, whenInitedResp_cfg (answer_cfg ..)⟩
  | render ch n => exact ⟨_, rfl, rfl⟩

@[simp] theorem engineStep_cfg (s : State) : (engineStep s).cfg = s.cfg := by
  rcases engineStep_cases s with ⟨-, he⟩ | ⟨-, -, he⟩ | ⟨-, -, he⟩ <;> simp [he]

/-- Every step answers a next state with the configuration it found (R7). -/
theorem step_next_cfg (s : State) : ∃ t, step s = .next t ∧ t.cfg = s.cfg := by
  rcases step_cases s with ⟨-, -, hs⟩ | ⟨w, ws, i, -, -, -, hs⟩ | ⟨w, ws, e, -, -, -, hs⟩ | ⟨-, -, hs⟩ |
    ⟨w, ws, i, -, -, -, -, hs⟩ | ⟨w, ws, e, -, -, -, -, hs⟩ | ⟨-, hs⟩ | ⟨-, hs⟩
  case inr.inl | inr.inr.inr.inr.inl =>
    rw [hs]
    obtain ⟨t, ht, hc⟩ := exec_next_cfg i _
    exact ⟨t, ht, by simp [hc]⟩
  all_goals exact ⟨_, hs, by simp⟩

/-- Settles O32: a step answers one state, and that one has the configuration. -/
theorem configurationNeverChanges : Obligations.ConfigurationNeverChanges := by
  intro s t h
  obtain ⟨t', ht', hc⟩ := step_next_cfg s
  obtain rfl : t' = t := by rw [h] at ht'; injection ht' with e; exact e.symm
  exact hc

end Sys2Proof.Machine
end

section
/-! PROOFS. The bounds of the signal path (O54): each stage of it is a product with a gain, narrowed by `asr`, and a sum of bounded terms. -/

namespace Sys2Proof.Machine

/-! ### Narrowing and sums -/

/-- Narrowing by `n` bits divides a bound by `2 ^ n`, although it rounds down. -/
theorem abs_asr_le {x B : Int} {n : Nat} (h : |x| ≤ B * 2 ^ n) : |asr x n| ≤ B := by
  have hp : (0 : Int) < 2 ^ n := by positivity
  obtain ⟨hlo, hhi⟩ := abs_le.1 h
  refine abs_le.2 ⟨(Int.le_ediv_iff_mul_le hp).2 (by linarith), ?_⟩
  exact (Int.ediv_le_ediv hp hhi).trans_eq (Int.mul_ediv_cancel _ hp.ne')

/-- A UQ1.15 gain of at most 1.0 keeps a bound (R11). -/
theorem abs_asr_mul_le {x B : Int} {g : Nat} (hx : |x| ≤ B) (hg : g ≤ 32768) : |asr (x * g) 15| ≤ B := by
  apply abs_asr_le
  rw [abs_mul, Nat.abs_cast]
  exact mul_le_mul hx (by exact_mod_cast hg) (by positivity) ((abs_nonneg x).trans hx)

/-- The sum of a list of terms, each within a bound. -/
theorem abs_sum_map_le {α : Type} (f : α → Int) (B : Int) (l : List α) (h : ∀ x ∈ l, |f x| ≤ B) :
    |(l.map f).sum| ≤ l.length * B := by
  induction l with
  | nil => simp
  | cons x l ih =>
    have hx : |f x| ≤ B := h x List.mem_cons_self
    have hl := ih fun y hy => h y (List.mem_cons_of_mem x hy)
    calc |((x :: l).map f).sum| ≤ |f x| + |(l.map f).sum| := by simpa using abs_add_le _ _
      _ ≤ B + l.length * B := add_le_add hx hl
      _ = (x :: l).length * B := by push_cast [List.length_cons]; ring

/-! ### One voice and the mix -/

/-- A lookup in a sine table in range; past the table's end it is 0 (R7, R157). -/
theorem abs_sineAt_le {c : Params} (h : c.sineRangeOk) (phase : Word) : |sineAt c phase| ≤ 32767 := by
  unfold sineAt
  rw [List.getD_eq_getElem?_getD]
  rcases hx : c.sine[phase.toNat / 2 ^ 24]? with _ | x
  · simp
  · exact abs_le.2 (h x (List.mem_of_getElem? hx))

theorem partialCount_le (mode : TimbreMode) : partialCount mode ≤ 16 := by cases mode <;> simp [partialCount]

theorem partialLevel_le (b : Bank) (j : Nat) : partialLevel b j ≤ 32768 := by
  unfold partialLevel; split <;> exact lim15_le _

/-- One partial is a level times a sine entry, or nothing (R155). -/
theorem abs_partialTerm_le {c : Params} (h : c.sineRangeOk) (b : Bank) (inc : BitVec 48) (v : Voice) (j : Nat) :
    |partialTerm c b inc v j| ≤ 32768 * 32767 := by
  unfold partialTerm; split
  · rw [abs_mul, Nat.abs_cast]
    exact mul_le_mul (by exact_mod_cast partialLevel_le b j) (abs_sineAt_le h _) (abs_nonneg _) (by norm_num)
  · simp

/-- The oscillator bank: at most sixteen partials (R155). -/
theorem abs_oscOut_le {c : Params} (h : c.sineRangeOk) (b : Bank) (inc : BitVec 48) (v : Voice) :
    |oscOut c b inc v| ≤ 524272 := by
  apply abs_asr_le
  have hsum := abs_sum_map_le (partialTerm c b inc v) _ (List.range (partialCount b.mode))
    fun j _ => abs_partialTerm_le h b inc v j
  have hcount := partialCount_le b.mode
  rw [List.length_range] at hsum
  omega

/-- A level within full scale is a gain of at most 1.0 (R175). -/
theorem Voice.Ok.envOut_le {v : Voice} (h : v.Ok) : envOut v ≤ 32768 := by
  have hlevel := h.level_le
  simp only [envOne] at hlevel
  simp only [envOut]; omega

/-- The velocity takes off the amplitude no more than the sensitivity (R222). -/
theorem amplitude_le (b : Bank) (v : Voice) : amplitude b v ≤ 32768 := by
  have hsens := lim15_le b.p[regVelSens]
  have hvel := v.vel.isLt
  have hpart : fdiv (lim15 b.p[regVelSens] * v.vel.toNat) 127 ≤ lim15 b.p[regVelSens] :=
    Nat.div_le_of_le_mul (by rw [Nat.mul_comm 127]; exact Nat.mul_le_mul_left _ (by omega))
  simp only [amplitude]; omega

/-- Level and amplitude keep the bound of the oscillator bank (R221). -/
theorem abs_voiceOut_le {c : Params} (h : c.sineRangeOk) (b : Bank) (inc : BitVec 48) {v : Voice} (hv : v.Ok) :
    |voiceOut c b inc v| ≤ 524272 := by
  unfold voiceOut; split
  · simp
  · exact abs_asr_mul_le (abs_asr_mul_le (abs_oscOut_le h b inc v) hv.envOut_le) (amplitude_le b v)

/-- The mix: one term for each slot of the pool (R223). -/
theorem abs_mixVoices_le {s : State} (h : s.cfg.sineRangeOk) (hpool : s.pool.Ok s.cfg.nv) :
    |mixVoices s| ≤ s.cfg.nv * 524272 := by
  have hsum := abs_sum_map_le (fun x => voiceOut s.cfg s.active (s.br.incOf x.2) x.1) 524272 s.pool.voices.zipIdx
    fun x hx => abs_voiceOut_le h _ _ (hpool.sound x.1 (List.fst_mem_of_mem_zipIdx hx))
  rwa [List.length_zipIdx, hpool.slots] at hsum

/-! ### The distorted signal -/

/-- Between the power's two neighbouring integers the curve stays at or below full scale (R192). -/
theorem shapeMagnitude_le (pEff a : Nat) : shapeMagnitude pEff a ≤ 32768 := by
  have interpolate (y0 y1 : Nat) (h0 : y0 ≤ 32768) (h1 : y1 ≤ 32768) :
      y0 + (y1 - y0) * (pEff % 2 ^ 16) / 2 ^ 16 ≤ 32768 := by
    have hfr : pEff % 2 ^ 16 ≤ 2 ^ 16 := (Nat.mod_lt _ (by norm_num)).le
    have hpart : (y1 - y0) * (pEff % 2 ^ 16) / 2 ^ 16 ≤ y1 - y0 :=
      Nat.div_le_of_le_mul (by rw [Nat.mul_comm (2 ^ 16)]; exact Nat.mul_le_mul_left _ hfr)
    omega
  exact interpolate _ _ (Nat.sub_le ..) (Nat.sub_le ..)

theorem abs_shape_le (c : Params) (b : Bank) (d : Int) : |shape c b d| ≤ 32768 := by
  have hmag := shapeMagnitude_le (effectivePower c b) (min d.natAbs 32768)
  simp only [shape, abs_le]; split <;> omega

/-- The gain register takes a full-scale signal to 32 bits: `-2^31` is reached, `2^31` is not (R193; log entry 17). -/
theorem gain_bounds (b : Bank) {w : Int} (h : |w| ≤ 32768) : -(2 ^ 31) ≤ gain b w ∧ gain b w < 2 ^ 31 := by
  obtain ⟨hlo, hhi⟩ := abs_le.1 h
  have hreg : (b.reg regDGain : Int) < 2 ^ 32 := by exact_mod_cast (b.p[regDGain]).isLt
  have hreg0 : (0 : Int) ≤ b.reg regDGain := Int.natCast_nonneg _
  have hge : -32768 * (b.reg regDGain : Int) ≤ w * b.reg regDGain := mul_le_mul_of_nonneg_right hlo hreg0
  have hle : w * (b.reg regDGain : Int) ≤ 32768 * b.reg regDGain := mul_le_mul_of_nonneg_right hhi hreg0
  simp only [gain, asr]
  omega

/-- Settles O54, stage by stage. -/
theorem signalPathIsBounded : Obligations.SignalPathIsBounded := by
  intro s hsine hinv
  obtain ⟨hlo, hhi⟩ := abs_le.1 (abs_mixVoices_le hsine hinv.pool)
  exact ⟨fun inc v => abs_le.1 (abs_oscOut_le hsine s.active inc v), hlo, hhi,
    fun mix => gain_bounds s.active (abs_shape_le s.cfg s.active (drive s.active mix))⟩

end Sys2Proof.Machine
end

section
/-! PROOFS. The reset values (O13, O14, O29): what the reset turn leaves, item by item, and that it is sound. -/

namespace Sys2Proof.Machine

/-- Settles O13: the reset turn restores every item, and the turn itself moves nothing but the schedule. -/
theorem hardwareResetRestoresEveryItem : Obligations.HardwareResetRestoresEveryItem := by
  intro s h
  have hs : step s = runTurn (nextTurn s) (takeTurn s) := rfl
  rw [hs, h]
  simp [runTurn, hardReset, restore]

/-- The default sine table has every property that R156 names. -/
theorem sineOk_defaultParams : defaultParams.sineOk :=
  ⟨by decide +kernel, by decide +kernel, by decide +kernel, by decide +kernel, by decide +kernel⟩

/-- The default configuration meets the constraints of R7. -/
theorem wellFormed_defaultParams : defaultParams.WellFormed :=
  ⟨by decide, by decide, by decide, sineOk_defaultParams, by decide, by decide, by decide⟩

/-- Every slot of the pool after reset is the reset slot (R49, R60). -/
theorem eq_of_mem_pool_reset {nv : Nat} {v : Voice} (h : v ∈ (Pool.reset nv).voices) : v = Voice.reset :=
  List.eq_of_mem_replicate h

/-- Every phase accumulator of the reset slot is 0 (R49, R60). -/
theorem voice_reset_phase : ∀ j : Fin 16, Voice.reset.phase[j] = 0 := by decide

/-- Settles O14: the registers hold their reset values by definition; the slots are one slot, repeated. -/
theorem resetValuesAreThoseOfTheSpec : Obligations.ResetValuesAreThoseOfTheSpec := by
  refine ⟨rfl, wellFormed_defaultParams, fun c => ?_⟩
  have hlength : (State.atReset c).pool.voices.length = c.nv := List.length_replicate
  have hslots : ∀ v ∈ (State.atReset c).pool.voices, v.stage = .idle ∧ v.note = 0 ∧ v.vel = 0 ∧ v.freq = 0 ∧
      (∀ j : Fin 16, v.phase[j] = 0) ∧ v.level = 0 ∧ v.relStep = 0 ∧ v.sustained = false ∧ v.serial = 0 := by
    intro v hv
    rw [eq_of_mem_pool_reset hv]
    exact ⟨rfl, rfl, rfl, rfl, voice_reset_phase, rfl, rfl, rfl, rfl⟩
  exact ⟨rfl, rfl, rfl, rfl, rfl, rfl, rfl, rfl, rfl, rfl, rfl, rfl, rfl, hlength, hslots, rfl, rfl, rfl, rfl, rfl, rfl, rfl,
    rfl, rfl, rfl, rfl, rfl, rfl, rfl, rfl, rfl, rfl, rfl⟩

/-- The reset slot is sound: it is Idle, silent and not held (R59). -/
theorem Voice.ok_reset : Voice.reset.Ok where
  level_le := by decide
  relStep_le := by decide
  idle_level _ := rfl
  idle_free _ := rfl
  held_stage h := by cases h

/-- The reset pool is sound: no slot sounds, so no two clash (R59). -/
theorem Pool.ok_reset (nv : Nat) : (Pool.reset nv).Ok nv where
  slots := List.length_replicate
  sound v hv := eq_of_mem_pool_reset hv ▸ Voice.ok_reset
  unique := List.pairwise_of_forall_mem_list fun v hv w _ => by rw [eq_of_mem_pool_reset hv]; rfl

/-- The reset state meets the invariant (R59, R60). -/
theorem State.inv_atReset (c : Params) : (State.atReset c).Inv where
  pool := Pool.ok_reset c.nv
  incs := List.length_replicate
  sustain := Nat.zero_le _
  rotor := ⟨le_refl 0x10000, (by decide : 0x10000 ≤ 0x80000)⟩
  queue := Nat.zero_le _
  rate h := by cases h
  outWf := List.Pairwise.nil
  outPast x hx := by cases hx
  seq :=
    { left_le := Nat.zero_le _
      due := fun h => by cases h
      left_due := fun h => by cases h
      index_fits := fun h => by cases h
      closed := fun _ => rfl }

/-- Settles O29, part by part of the invariant. -/
theorem resetMeetsTheInvariant : Obligations.ResetMeetsTheInvariant := State.inv_atReset

end Sys2Proof.Machine
end

section
/-! PROOFS. What one step can do to the groups of state of R20, said once: a turn touches the ports and the schedule, a C-port command the
control groups, an engine step the engine groups. Ownership (O34) is these frames. -/

namespace Sys2Proof.Machine

/-! ### The sticky flags -/

/-- Raising a condition sets its flag and leaves the other three (R275). -/
theorem Flags.get_set (f : Flags) (c d : Cond) : (f.set d).get c = if c = d then true else f.get c := by
  cases c <;> cases d <;> rfl

/-- Raising a condition clears no flag (R275). -/
theorem Flags.get_set_of_get {f : Flags} {c : Cond} (d : Cond) (h : f.get c = true) : (f.set d).get c = true := by
  rw [Flags.get_set, h, ite_self]

/-! ### Turns -/

/-- `t` is `s` after a turn has been taken, and perhaps a word from a port: the ports and the schedule have moved, nothing else. -/
def TurnTaken (s t : State) : Prop :=
  t = { s with cIn := t.cIn, rIn := t.rIn, sched := t.sched, tick := t.tick }

theorem turnTaken_takeTurn (s : State) : TurnTaken s (takeTurn s) := by
  unfold takeTurn; split <;> rfl

theorem turnTaken_control (s : State) (ws : List CmdWord) : TurnTaken s { takeTurn s with cIn := ws } := by
  unfold takeTurn; split <;> rfl

theorem turnTaken_render (s : State) (ws : List CmdWord) : TurnTaken s { takeTurn s with rIn := ws } := by
  unfold takeTurn; split <;> rfl

/-! ### C-port commands -/

/-- What a C-port command other than an accepted INIT can do (R20, R246): it writes the control groups only, never initialises the device,
clears no flag, and does not overfill the queue. -/
structure ControlEffect (s t : State) : Prop where
  frame : t = { s with
    inited := t.inited, initStat := t.initStat, flags := t.flags, shadow := t.shadow, evq := t.evq, resp := t.resp }
  inited_of : t.inited = true → s.inited = true
  sticky : ∀ c, s.flags.get c = true → t.flags.get c = true
  queue : s.evq.length ≤ s.cfg.evqDepth → t.evq.length ≤ s.cfg.evqDepth

theorem controlEffect_refl (s : State) : ControlEffect s s := ⟨rfl, id, fun _ => id, id⟩

/-- Effects of the control side compose: a command that answers and then raises a condition has one. -/
theorem ControlEffect.trans {s t u : State} (h : ControlEffect s t) (h' : ControlEffect t u) : ControlEffect s u where
  frame := by rw [h'.frame, h.frame]
  inited_of := h.inited_of ∘ h'.inited_of
  sticky c := h'.sticky c ∘ h.sticky c
  queue hq := by
    have hcfg : t.cfg = s.cfg := by rw [h.frame]
    exact hcfg ▸ h'.queue (hcfg ▸ h.queue hq)

theorem controlEffect_raise (c : Cond) (s : State) : ControlEffect s (raise c s) :=
  ⟨rfl, id, fun _ => Flags.get_set_of_get c, id⟩

theorem controlEffect_respond (v : Word) (s : State) : ControlEffect s (respond v s) := ⟨rfl, id, fun _ => id, id⟩

/-- A discarded responder answers 0 and raises its condition (R275, R279). -/
theorem controlEffect_raise_respond (c : Cond) (s : State) : ControlEffect s (raise c (respond 0 s)) :=
  (controlEffect_respond 0 s).trans (controlEffect_raise c _)

theorem controlEffect_evqPush (e : Event) (s : State) : ControlEffect s (evqPush e s) := by
  rcases evqPush_cases e s with ⟨hroom, he⟩ | ⟨-, he⟩ <;> rw [he]
  · exact ⟨rfl, id, fun _ => id, fun _ => by simpa using hroom⟩
  · exact controlEffect_raise .evqOvf s

theorem controlEffect_storeShadow (b : Option Bank) (s : State) : ControlEffect s (storeShadow b s) := by
  rcases storeShadow_cases b s with ⟨b', -, he⟩ | ⟨-, he⟩ <;> rw [he]
  · exact ⟨rfl, id, fun _ => id, id⟩
  · exact controlEffect_raise .badIdx s

theorem controlEffect_answer (v : Option Word) (s : State) : ControlEffect s (answer v s) := by
  rcases answer_cases v s with ⟨w, -, he⟩ | ⟨-, he⟩ <;> rw [he]
  · exact controlEffect_respond w s
  · exact controlEffect_raise_respond .badIdx s

/-- The lifecycle check adds nothing to what the checked operation can do but NOTINIT (R279). -/
theorem ControlEffect.checked {s done : State} (h : ControlEffect s done) : ControlEffect s (whenInited s done) := by
  rcases whenInited_cases s done with ⟨-, he⟩ | ⟨-, he⟩ <;> rw [he]
  · exact h
  · exact controlEffect_raise .notInit s

/-- The same for a responder, which answers 0 as well (R279). -/
theorem ControlEffect.checkedResp {s done : State} (h : ControlEffect s done) :
    ControlEffect s (whenInitedResp s done) := by
  rcases whenInitedResp_cases s done with ⟨-, he⟩ | ⟨-, he⟩ <;> rw [he]
  · exact h
  · exact controlEffect_raise_respond .notInit s

/-- An INIT is accepted only by an uninitialised device between RENDERs, at a rate within the bounds (R260). -/
theorem accepted_of_initStatus {sr : Word} {s : State} (h : initStatus sr s = 0) :
    s.inited = false ∧ s.rendering = false ∧ s.cfg.srMin ≤ sr.toNat ∧ sr.toNat ≤ s.cfg.srMax := by
  rcases initStatus_cases sr s with ⟨-, he⟩ | ⟨-, -, he⟩ | ⟨-, -, -, he⟩ | ⟨hin, hren, hmin, hmax, -⟩
  · rw [h] at he; cases he
  · rw [h] at he; cases he
  · rw [h] at he; cases he
  · exact ⟨hin, hren, hmin, hmax⟩

/-- What an accepted INIT leaves (R260). -/
def initDone (sr : Word) (s : State) : State := respond 0 { initEngine sr s with initStat := 0 }

theorem execInit_accepted {sr : Word} {s : State} (h : initStatus sr s = 0) : execInit sr s = .next (initDone sr s) := by
  rcases execInit_cases sr s with ⟨hne, -⟩ | ⟨-, he⟩
  · exact absurd h hne
  · exact he

/-- A refused INIT records its status and answers it (R260). -/
theorem execInit_refused {sr : Word} {s : State} (h : initStatus sr s ≠ 0) :
    ∃ t, execInit sr s = .next t ∧ ControlEffect s t := by
  rcases execInit_cases sr s with ⟨-, he⟩ | ⟨h0, -⟩
  · exact ⟨_, he, rfl, id, fun _ => id, id⟩
  · exact absurd h0 h

/-- Every C-port command other than an accepted INIT writes the control groups only (R20). -/
theorem exec_controlEffect {i : Instr} {s : State} (hport : i.port = .control)
    (hinit : ∀ sr, i = .init sr → initStatus sr s ≠ 0) : ∃ t, exec i s = .next t ∧ ControlEffect s t := by
  cases i with
  | init sr => exact execInit_refused (hinit sr rfl)
  | deinit =>
    have hcleared : ControlEffect s { s with inited := false } :=
      ⟨rfl, (by intro h; cases h), fun _ => id, id⟩
    exact ⟨_, rfl, hcleared.checked⟩
  | rdstat => exact ⟨_, rfl, controlEffect_respond ..⟩
  | play note vel freq => exact ⟨_, rfl, (controlEffect_evqPush ..).checked⟩
  | stop note imm => exact ⟨_, rfl, (controlEffect_evqPush ..).checked⟩
  | pedal down => exact ⟨_, rfl, (controlEffect_evqPush ..).checked⟩
  | wrp reg value => exact ⟨_, rfl, (controlEffect_storeShadow ..).checked⟩
  | rdp reg => exact ⟨_, rfl, (controlEffect_answer ..).checkedResp⟩
  | setdb index value => exact ⟨_, rfl, (controlEffect_storeShadow ..).checked⟩
  | getdb index => exact ⟨_, rfl, (controlEffect_answer ..).checkedResp⟩
  | sethl index value => exact ⟨_, rfl, (controlEffect_storeShadow ..).checked⟩
  | gethl index => exact ⟨_, rfl, (controlEffect_answer ..).checkedResp⟩
  | render ch n => cases hport

/-! ### Engine steps -/

/-- What an engine step can do (R20, R216): it writes the engine groups and the NOTINIT flag only, and empties the queue or leaves it. -/
structure EngineEffect (s t : State) : Prop where
  frame : t = { s with
    active := t.active, evq := t.evq, pool := t.pool, leslieCur := t.leslieCur, rotorPhase := t.rotorPhase,
    vibPhase := t.vibPhase, br := t.br, seq := t.seq, out := t.out, rendering := t.rendering,
    flags := { s.flags with notInit := t.flags.notInit } }
  queue : t.evq = s.evq ∨ t.evq = []

/-- PREP writes the active bank, the queue, the pool, the modulators and the block-rate registers only (R217). -/
theorem prep_frame (len : Nat) (s : State) :
    prep len s = { s with
      active := (prep len s).active, evq := (prep len s).evq, pool := (prep len s).pool,
      leslieCur := (prep len s).leslieCur, vibPhase := (prep len s).vibPhase, br := (prep len s).br } := by
  rw [prep_eq, prepLeslie]; rfl

theorem engineEffect_chunkStart (s : State) : EngineEffect s (chunkStart s) := by
  cases hin : s.inited with
  | true =>
    rw [chunkStart_live s hin]
    exact ⟨by rw [prep_frame]; rfl, .inr (prep_evq ..)⟩
  | false =>
    rw [chunkStart_silent s hin]
    exact ⟨rfl, .inl rfl⟩

theorem engineEffect_sampleStep (s : State) : EngineEffect s (sampleStep s) := by
  refine ⟨?_, .inl (sampleStep_evq s)⟩
  unfold sampleStep; split <;> rfl

/-- Every engine step writes the engine groups only (R20). -/
theorem engineEffect_engineStep (s : State) : EngineEffect s (engineStep s) := by
  rcases engineStep_cases s with ⟨-, he⟩ | ⟨-, -, he⟩ | ⟨-, -, he⟩ <;> rw [he]
  · exact ⟨rfl, .inl rfl⟩
  · exact engineEffect_chunkStart s
  · exact engineEffect_sampleStep s

/-- Settles O34: the frame of each side. -/
theorem eachAgentWritesItsOwnState : Obligations.EachAgentWritesItsOwnState := by
  refine ⟨fun i s t hport hinit ht => ?_, fun s => ?_⟩
  · obtain ⟨t', ht', heffect⟩ := exec_controlEffect hport hinit
    obtain rfl : t' = t := Host.Outcome.next.inj (ht'.symm.trans ht)
    exact heffect.frame
  · have heffect := engineEffect_engineStep s
    exact ⟨engineStep s, rfl, heffect.frame, heffect.queue⟩

/-! ### Whole steps -/

/-- The whole of what one step can do, by what it writes: after its turn is taken (`s'`), a step has the effect of the control side, of an
accepted INIT, of an accepted RENDER, of the engine, or of the reset input. -/
inductive StepEffect (s : State) : State → Prop where
  | control {s' t : State} (hturn : TurnTaken s s') (heffect : ControlEffect s' t) : StepEffect s t
  | init {s' : State} {sr : Word} (hturn : TurnTaken s s') (hstatus : initStatus sr s' = 0) : StepEffect s (initDone sr s')
  | render {s' t : State} {ch : BitVec 8} {n : Word} (hturn : TurnTaken s s') (hidle : s'.rendering = false)
      (ht : execRender ch n s' = .next t) : StepEffect s t
  | engine {s' : State} (hturn : TurnTaken s s') : StepEffect s (engineStep s')
  | reset {s' : State} (hturn : TurnTaken s s') (hreset : nextTurn s = .reset) : StepEffect s (hardReset s')

/-- A command decoded at the C-port. -/
theorem stepEffect_of_control {s s' t : State} {i : Instr} (hturn : TurnTaken s s') (hport : i.port = .control)
    (ht : exec i s' = .next t) : StepEffect s t := by
  by_cases hinit : ∃ sr, i = .init sr ∧ initStatus sr s' = 0
  · obtain ⟨sr, rfl, hstatus⟩ := hinit
    obtain rfl : initDone sr s' = t := Host.Outcome.next.inj ((execInit_accepted hstatus).symm.trans ht)
    exact .init hturn hstatus
  · obtain ⟨t', ht', heffect⟩ := exec_controlEffect hport fun sr hi h0 => hinit ⟨sr, hi, h0⟩
    obtain rfl : t' = t := Host.Outcome.next.inj (ht'.symm.trans ht)
    exact .control hturn heffect

/-- A command decoded at the R-port is a RENDER (R110). -/
theorem stepEffect_of_render {s s' t : State} {i : Instr} (hturn : TurnTaken s s') (hidle : s'.rendering = false)
    (hport : i.port = .render) (ht : exec i s' = .next t) : StepEffect s t := by
  cases i with
  | render ch n => exact .render hturn hidle ht
  | _ => cases hport

/-- Every step has one of these effects (R71). -/
theorem step_effect {s t : State} (h : step s = .next t) : StepEffect s t := by
  have next_eq {u : State} (hu : step s = .next u) : u = t := Host.Outcome.next.inj (hu.symm.trans h)
  rcases step_cases s with ⟨-, -, hs⟩ | ⟨w, ws, i, -, -, hd, hs⟩ | ⟨w, ws, e, -, -, -, hs⟩ | ⟨-, -, hs⟩ |
    ⟨w, ws, i, -, hidle, -, hd, hs⟩ | ⟨w, ws, e, -, -, -, -, hs⟩ | ⟨-, hs⟩ | ⟨hreset, hs⟩
  · exact next_eq hs ▸ .control (turnTaken_takeTurn s) (controlEffect_refl _)
  · obtain ⟨-, -, -, -, hport⟩ := decodeAt_ok _ _ _ hd
    exact stepEffect_of_control (turnTaken_control s ws) hport (hs.symm.trans h)
  · exact next_eq hs ▸ .control (turnTaken_control s ws) (controlEffect_raise ..)
  · exact next_eq hs ▸ .control (turnTaken_takeTurn s) (controlEffect_refl _)
  · obtain ⟨-, -, -, -, hport⟩ := decodeAt_ok _ _ _ hd
    exact stepEffect_of_render (turnTaken_render s ws) (by simpa using hidle) hport (hs.symm.trans h)
  · exact next_eq hs ▸ .control (turnTaken_render s ws) (controlEffect_raise ..)
  · exact next_eq hs ▸ .engine (turnTaken_takeTurn s)
  · exact next_eq hs ▸ .reset (turnTaken_takeTurn s) hreset

end Sys2Proof.Machine
end

section
/-! PROOFS. Two rules of the whole machine: the sticky flags (O31) and the fixed sample rate (O33), by what a step can do. -/

namespace Sys2Proof.Machine

@[simp] theorem initDone_flags (sr : Word) (s : State) : (initDone sr s).flags = s.flags := rfl

/-- The engine clears no flag: the only one it writes is NOTINIT, and that it sets (R216, R227). -/
theorem engineStep_sticky (s : State) (c : Cond) (h : s.flags.get c = true) : (engineStep s).flags.get c = true := by
  rcases engineStep_cases s with ⟨-, he⟩ | ⟨-, -, he⟩ | ⟨-, -, he⟩ <;> rw [he]
  · exact h
  · cases hin : s.inited with
    | true => simpa [chunkStart_live s hin] using h
    | false => rw [chunkStart_silent s hin]; exact Flags.get_set_of_get .notInit h
  · simpa using h

/-- Settles O31: only the reset input clears a flag. -/
theorem flagsAreStickyUntilReset : Obligations.FlagsAreStickyUntilReset := by
  intro s t c hturn hstep hflag
  have taken {s' : State} (h : TurnTaken s s') : s'.flags.get c = true := by rw [h]; exact hflag
  cases step_effect hstep with
  | control h heffect => exact heffect.sticky c (taken h)
  | init h _ => rw [initDone_flags]; exact taken h
  | render h _ ht =>
    cases ht
    have hkept := taken h
    exact hkept
  | engine h => exact engineStep_sticky _ c (taken h)
  | reset _ hreset => exact absurd hreset hturn

@[simp] theorem engineStep_inited (s : State) : (engineStep s).inited = s.inited := by
  rw [(engineEffect_engineStep s).frame]

@[simp] theorem engineStep_sr (s : State) : (engineStep s).sr = s.sr := by
  rw [(engineEffect_engineStep s).frame]

/-- A step that finds the device initialised and leaves it so keeps its rate (R23). -/
theorem step_keeps_rate {s t : State} (hstep : step s = .next t) (hs : s.inited = true) (ht : t.inited = true) :
    t.sr = s.sr := by
  cases step_effect hstep with
  | control h heffect => rw [heffect.frame, h]
  | init h hstatus =>
    have hin := (accepted_of_initStatus hstatus).1
    rw [h] at hin
    exact absurd hin (by simp [hs])
  | render h _ hrender => cases hrender; rw [h]
  | engine h => rw [engineStep_sr, h]
  | reset => cases ht

/-- A step during a RENDER initialises no device (R216, R260). -/
theorem step_keeps_uninitialised {s t : State} (hstep : step s = .next t) (hs : s.inited = false)
    (hren : s.rendering = true) : t.inited = false := by
  cases step_effect hstep with
  | control h heffect =>
    rw [h] at heffect
    exact Bool.eq_false_iff.2 fun ht => absurd (heffect.inited_of ht) (by simp [hs])
  | init h hstatus =>
    have hidle := (accepted_of_initStatus hstatus).2.1
    rw [h] at hidle
    exact absurd hidle (by simp [hren])
  | render h _ hrender => cases hrender; rw [h]; exact hs
  | engine h => rw [engineStep_inited, h]; exact hs
  | reset => rfl

/-- Settles O33, both parts by what a step can do. -/
theorem rateIsFixedWhileInitialised : Obligations.RateIsFixedWhileInitialised :=
  ⟨fun _ _ => step_keeps_rate, fun _ _ => step_keeps_uninitialised⟩

end Sys2Proof.Machine
end

section
/-! PROOFS. Every step keeps the invariant (O30): one lemma for each effect a step can have. -/

namespace Sys2Proof.Machine

/-! ### Turns and the control side -/

/-- A state with the engine groups of one that meets the invariant meets it too, if its queue fits and its rate is within the bounds. -/
theorem State.Inv.of_engine_eq {s t : State} (h : s.Inv)
    (hframe : t = { s with
      inited := t.inited, sr := t.sr, initStat := t.initStat, flags := t.flags, shadow := t.shadow, evq := t.evq,
      vibInc := t.vibInc, resp := t.resp, cIn := t.cIn, rIn := t.rIn, sched := t.sched, tick := t.tick })
    (hqueue : t.evq.length ≤ s.cfg.evqDepth)
    (hrate : t.inited = true → s.cfg.srMin ≤ t.sr.toNat ∧ t.sr.toNat ≤ s.cfg.srMax) : t.Inv := by
  rw [hframe]
  obtain ⟨hleft, hdue, hleftDue, hfits, hclosed⟩ := h.seq
  exact
    { pool := h.pool, incs := h.incs, sustain := h.sustain, rotor := h.rotor, queue := hqueue, rate := hrate
      outWf := h.outWf, outPast := h.outPast, seq := ⟨hleft, hdue, hleftDue, hfits, hclosed⟩ }

/-- Taking a turn keeps the invariant. -/
theorem TurnTaken.inv {s t : State} (ht : TurnTaken s t) (h : s.Inv) : t.Inv :=
  h.of_engine_eq (by rw [ht]) (by rw [ht]; exact h.queue) (by rw [ht]; exact h.rate)

/-- The control side keeps the invariant. -/
theorem ControlEffect.inv {s t : State} (he : ControlEffect s t) (h : s.Inv) : t.Inv := by
  have hsr : t.sr = s.sr := by rw [he.frame]
  exact h.of_engine_eq (by rw [he.frame]) (he.queue h.queue) fun hin => hsr ▸ h.rate (he.inited_of hin)

/-! ### Reset, INIT and RENDER -/

/-- Whatever a RENDER has written lies before the next one (R77). -/
theorem outBound_le {s : State} (h : SequencerOk s) : outBound s ≤ outAddr (s.renderNo + 1) 0 0 := by
  unfold outBound; split
  · rename_i hren
    have hfits := h.index_fits hren
    simp only [outAddr]; omega
  · exact le_refl _

/-- Restoring the reset values keeps the invariant: the output space stays, and no RENDER is in progress (R60, R301). -/
theorem State.Inv.restored {s : State} (h : s.Inv) : (restore s).Inv := by
  have hreset := State.inv_atReset s.cfg
  obtain ⟨hleft, hdue, hleftDue, hfits, hclosed⟩ := hreset.seq
  exact
    { pool := hreset.pool, incs := hreset.incs, sustain := hreset.sustain, rotor := hreset.rotor, queue := hreset.queue
      rate := hreset.rate, outWf := h.outWf, outPast := fun x hx => (h.outPast x hx).trans_le (outBound_le h.seq)
      seq := ⟨hleft, hdue, hleftDue, hfits, hclosed⟩ }

/-- An accepted INIT keeps the invariant: its rate is within the bounds (R23, R260). -/
theorem State.Inv.initDone {s : State} {sr : Word} (h : s.Inv) (hstatus : initStatus sr s = 0) : (initDone sr s).Inv := by
  obtain ⟨-, -, hmin, hmax⟩ := accepted_of_initStatus hstatus
  exact h.restored.of_engine_eq rfl (Nat.zero_le _) fun _ => ⟨hmin, hmax⟩

/-- The acceptance of a RENDER keeps the invariant: the next element is the first of the next output space (R77, R215). -/
theorem State.Inv.renderAccepted {s t : State} {ch : BitVec 8} {n : Word} (h : s.Inv) (hidle : s.rendering = false)
    (ht : execRender ch n s = .next t) : t.Inv := by
  cases ht
  have hbound : outBound s = outAddr (s.renderNo + 1) 0 0 := by simp [outBound, hidle]
  have hpast := h.outPast
  rw [hbound] at hpast
  refine
    { pool := h.pool, incs := h.incs, sustain := h.sustain, rotor := h.rotor, queue := h.queue, rate := h.rate
      outWf := h.outWf, outPast := fun x hx => (hpast x hx).trans_eq ?_, seq := ?_ }
  · by_cases hn : n = 0#32 <;> simp [outBound, hn]
  · have hdue (hn : (n != 0) = true) : 1 ≤ n.toNat := by
      have hne : n ≠ 0 := by simpa using hn
      bv_omega
    exact
      { left_le := Nat.zero_le _, due := hdue, left_due := fun _ => Nat.zero_le _
        index_fits := fun _ => by simpa using n.isLt
        closed := fun _ => rfl }

/-! ### The chunk start -/

/-- Opening a chunk keeps the invariant: it is no longer than what is due (R216). -/
theorem State.Inv.openChunk {s : State} (h : s.Inv) (hren : s.rendering = true) : (openChunk s).Inv :=
  { pool := h.pool, incs := h.incs, sustain := h.sustain, rotor := h.rotor, queue := h.queue, rate := h.rate
    outWf := h.outWf, outPast := h.outPast
    seq :=
      { left_le := Nat.min_le_left _ _, due := h.seq.due, left_due := fun _ => Nat.min_le_right _ _
        index_fits := h.seq.index_fits, closed := fun hidle => absurd hren (by simpa using hidle) } }

theorem envelopeConstants_susLvl_le (b : Bank) (sr : Word) (r : BlockRate) :
    (envelopeConstants b sr r).susLvl.toNat ≤ envOne := by
  rw [envelopeConstants_susLvl]; exact sustainLevel_le b

/-- The voice pool after PREP is sound: the events keep it so, then the stage transitions (R59, R172, R219). -/
theorem State.Inv.prep_pool_ok {s : State} (h : s.Inv) (len : Nat) : (prep len s).pool.Ok s.cfg.nv := by
  have hdrained := h.pool.applyEvents s.shadow s.sr s.evq
  rw [prep_pool]
  refine hdrained.map _ _ _ (fun v hv => ?_) fun v _ hsounds => ?_
  · exact (hdrained.sound v hv).stageTransition _ (envelopeConstants_susLvl_le ..)
  · obtain ⟨hnote, hstage⟩ := stageTransition_quiet (envelopeConstants s.shadow s.sr s.br) v
    exact ⟨hstage hsounds, hnote⟩

/-- The rotor speed after PREP stays between 1.0 and 8.0, as the target does (R59, R201, R202). -/
theorem State.Inv.prep_rotor {s : State} (h : s.Inv) (len : Nat) :
    0x10000 ≤ (prep len s).leslieCur.toNat ∧ (prep len s).leslieCur.toNat ≤ 0x80000 := by
  obtain ⟨hlo, hhi⟩ := h.rotor
  obtain ⟨htlo, hthi⟩ := leslieTarget_bounds s.shadow
  obtain ⟨hrlo, hrhi⟩ := leslieRamp_bounds s.leslieCur.toNat (leslieTarget s.shadow) (leslieStep s.cfg s.sr len)
  rw [prep_leslieCur_toNat]
  exact ⟨(le_min hlo htlo).trans hrlo, hrhi.trans (max_le hhi hthi)⟩

/-- PREP keeps the invariant (R217). -/
theorem State.Inv.prep {s : State} (h : s.Inv) (len : Nat) : (prep len s).Inv where
  pool := by rw [prep_cfg]; exact h.prep_pool_ok len
  incs := by rw [prep_br, prep_cfg, List.length_map]; exact (h.prep_pool_ok len).slots
  sustain := by rw [prep_br]; exact envelopeConstants_susLvl_le s.shadow s.sr s.br
  rotor := h.prep_rotor len
  queue := by simp
  rate := by simpa using h.rate
  outWf := by rw [prep_out]; exact h.outWf
  outPast := by simpa [outBound] using h.outPast
  seq :=
    { left_le := by simpa using h.seq.left_le
      due := by simpa using h.seq.due
      left_due := by simpa using h.seq.left_due
      index_fits := by simpa using h.seq.index_fits
      closed := by simpa using h.seq.closed }

/-- A chunk start keeps the invariant (R216). -/
theorem State.Inv.chunkStart {s : State} (h : s.Inv) (hren : s.rendering = true) : (chunkStart s).Inv := by
  have hopen := h.openChunk hren
  cases hin : s.inited with
  | true => rw [chunkStart_live s hin]; exact hopen.prep _
  | false => rw [chunkStart_silent s hin]; exact (controlEffect_raise ..).inv hopen

/-! ### The sample step -/

/-- A change of every slot, with its index, that keeps each sound and changes no stage and no note keeps the pool sound. -/
theorem Pool.Ok.zipIdx_map {nv : Nat} {pl : Pool} (h : pl.Ok nv) (f : Voice × Nat → Voice)
    (hok : ∀ x, x.1.Ok → (f x).Ok) (hstage : ∀ x, (f x).stage = x.1.stage) (hnote : ∀ x, (f x).note = x.1.note) :
    Pool.Ok nv { pl with voices := pl.voices.zipIdx.map f } where
  slots := by simpa using h.slots
  sound := by
    intro v hv
    obtain ⟨x, hx, rfl⟩ := List.mem_map.1 hv
    exact hok x (h.sound x.1 (List.fst_mem_of_mem_zipIdx hx))
  unique := by
    have hfst : pl.voices.zipIdx.Pairwise (fun x y => x.1.clashes y.1 = false) :=
      List.pairwise_map.1 (by rw [List.zipIdx_map_fst 0]; exact h.unique)
    exact List.pairwise_map.2 (hfst.imp fun {x y} hxy => by simpa [clashes_iff, hstage, hnote] using hxy)

section voiceNext
variable (c : Params) (mode : TimbreMode) (r : BlockRate) (inc : BitVec 48) (v : Voice)

@[simp] theorem voiceNext_stage : (voiceNext c mode r inc v).stage = v.stage := by
  unfold voiceNext; split
  · rfl
  · exact envStep_stage ..

@[simp] theorem voiceNext_note : (voiceNext c mode r inc v).note = v.note := by
  unfold voiceNext; split
  · rfl
  · exact envStep_note ..

end voiceNext

/-- A sample keeps a slot sound: no property of R59 speaks of the phases (R155, R174). -/
theorem Voice.Ok.voiceNext {v : Voice} (h : v.Ok) (c : Params) (mode : TimbreMode) (r : BlockRate) (inc : BitVec 48)
    (hr : r.susLvl.toNat ≤ envOne) : (voiceNext c mode r inc v).Ok := by
  unfold Machine.voiceNext; split
  · exact h
  · have hmoved : Voice.Ok { v with phase := oscAdvance c mode inc v } :=
      ⟨h.level_le, h.relStep_le, h.idle_level, h.idle_free, h.held_stage⟩
    exact hmoved.envStep r hr

/-- The voice pool after a sample step is sound, whether or not the chunk is live (R59, R220). -/
theorem State.Inv.sampleStep_pool_ok {s : State} (h : s.Inv) : (sampleStep s).pool.Ok s.cfg.nv := by
  rw [sampleStep_pool]; split
  · exact h.pool.zipIdx_map _ (fun x hx => hx.voiceNext _ _ _ _ h.sustain) (fun x => voiceNext_stage ..)
      fun x => voiceNext_note ..
  · exact h.pool

section sampleCounters
variable {s : State} (h : SequencerOk s) (hren : s.rendering = true)
include h hren

/-- While a RENDER runs the index does not wrap (R56). -/
theorem SequencerOk.sIdx_succ : (s.seq.sIdx + 1).toNat = s.seq.sIdx.toNat + 1 := by
  have hdue := h.due hren
  have hfits := h.index_fits hren
  bv_omega

/-- While a RENDER runs a sample is due, so the count does not wrap (R56). -/
theorem SequencerOk.rem_pred : (s.seq.rem - 1).toNat = s.seq.rem.toNat - 1 := by
  have hdue := h.due hren
  bv_omega

/-- A RENDER goes on after a sample exactly if more samples are due (R216). -/
theorem SequencerOk.sampleStep_rendering_iff : (sampleStep s).rendering = true ↔ 2 ≤ s.seq.rem.toNat := by
  have hdue := h.due hren
  have hpred := h.rem_pred hren
  have hzero : s.seq.rem - 1 = 0 ↔ (s.seq.rem - 1).toNat = 0 := by
    rw [← BitVec.toNat_inj]; rfl
  rw [sampleStep_rendering, hren]
  simp only [hzero, hpred]
  split <;> simp <;> omega

/-- A sample step keeps the bounds of the sequencer (R56, R216). -/
theorem SequencerOk.sampleStep : SequencerOk (sampleStep s) := by
  have hdue := h.due hren
  have hleft := h.left_le
  have hleftDue := h.left_due hren
  have hfits := h.index_fits hren
  have hidx := h.sIdx_succ hren
  have hrem := h.rem_pred hren
  have hgoes := h.sampleStep_rendering_iff hren
  constructor <;> simp only [sampleStep_seq]
  case left_le => omega
  case due => intro hmore; have := hgoes.1 hmore; omega
  case left_due => omega
  case index_fits => omega
  case closed =>
    intro hlast
    have hone : ¬ 2 ≤ s.seq.rem.toNat := by rw [← hgoes, hlast]; simp
    omega

/-- The elements of the sample written lie before the next one to come (R77, R91). -/
theorem SequencerOk.written_lt {c : Nat} (hc : c < 256) :
    outAddr s.renderNo s.seq.sIdx.toNat c < outBound (Machine.sampleStep s) := by
  have hfits := h.index_fits hren
  have hidx := h.sIdx_succ hren
  unfold outBound
  rw [sampleStep_renderNo, sampleStep_seq]
  split
  · exact outAddr_lt (by omega) hc (.inr ⟨rfl, .inl (by dsimp only; omega)⟩)
  · exact outAddr_lt (by omega) hc (.inl (by omega))

end sampleCounters

/-- A sample step keeps the invariant (R216, R220, R225). -/
theorem State.Inv.sampleStep {s : State} (h : s.Inv) (hren : s.rendering = true) : (sampleStep s).Inv where
  pool := by rw [sampleStep_cfg]; exact h.sampleStep_pool_ok
  incs := by simpa using h.incs
  sustain := by simpa using h.sustain
  rotor := by simpa using h.rotor
  queue := by simpa using h.queue
  rate := by simpa using h.rate
  outWf := by rw [sampleStep_out]; exact Memory.wf_writeChannels _ _ _ _ _ h.outWf
  outPast := by
    intro x hx
    rw [sampleStep_out] at hx
    rcases Memory.mem_writeChannels _ _ _ _ _ _ hx with hold | ⟨c, hc, rfl⟩
    · have hpast := h.outPast x hold
      rw [outBound, if_pos hren] at hpast
      exact hpast.trans (h.seq.written_lt hren (by omega))
    · exact h.seq.written_lt hren (hc.trans s.seq.chN.isLt)
  seq := h.seq.sampleStep hren

/-! ### All steps -/

/-- An engine step keeps the invariant (R216). -/
theorem State.Inv.engineStep {s : State} (h : s.Inv) : (engineStep s).Inv := by
  rcases engineStep_cases s with ⟨-, he⟩ | ⟨hren, -, he⟩ | ⟨hren, -, he⟩ <;> rw [he]
  · exact h
  · exact h.chunkStart hren
  · exact h.sampleStep hren

/-- Settles O30, by what a step can do. -/
theorem stepKeepsTheInvariant : Obligations.StepKeepsTheInvariant := by
  intro s t h hstep
  cases step_effect hstep with
  | control hturn heffect => exact heffect.inv (hturn.inv h)
  | init hturn hstatus => exact (hturn.inv h).initDone hstatus
  | render hturn hidle ht => exact (hturn.inv h).renderAccepted hidle ht
  | engine hturn => exact (hturn.inv h).engineStep
  | reset hturn _ => exact (hturn.inv h).restored

end Sys2Proof.Machine
end

section
/-! PROOFS. What a turn of each agent is: the equations of one step (O8, O10), that nothing stops the device (O12), and the response
stream (O35). -/

namespace Sys2Proof.Machine

/-! ### Turns -/

theorem nextTurn_cons {s : State} {t : Turn} {ts : List Turn} (h : s.sched = t :: ts) : nextTurn s = t := by
  simp [nextTurn, h]

theorem takeTurn_cons {s : State} {t : Turn} {ts : List Turn} (h : s.sched = t :: ts) :
    takeTurn s = { s with sched := ts } := by
  simp [takeTurn, h]

theorem nextTurn_nil {s : State} (h : s.sched = []) : nextTurn s = Config.freeTurn s.tick := by
  simp [nextTurn, h]

theorem takeTurn_nil {s : State} (h : s.sched = []) : takeTurn s = { s with tick := s.tick + 1 } := by
  simp [takeTurn, h]

/-- A step runs the turn that is next, once it is taken (R71). -/
theorem step_eq_runTurn {s : State} {t : Turn} (h : nextTurn s = t) : step s = runTurn t (takeTurn s) := h ▸ rfl

/-- A word legal at a port runs its command (R103). -/
theorem runWord_ok {p : Port} {w : CmdWord} {i : Instr} (h : decodeAt p w = .ok i) (s : State) :
    runWord p w s = exec i s := by
  simp [runWord, h]

/-! ### What a port takes -/

theorem fetchControl_cons {s : State} {w : CmdWord} {ws : List CmdWord} (h : s.cIn = w :: ws) :
    fetchControl (takeTurn s) = some (w, { takeTurn s with cIn := ws }) := by
  simp [fetchControl, h]

theorem fetchControl_nil {s : State} (h : s.cIn = []) : fetchControl (takeTurn s) = none := by
  simp [fetchControl, h]

theorem fetchRender_cons {s : State} {w : CmdWord} {ws : List CmdWord} (hren : s.rendering = false)
    (h : s.rIn = w :: ws) : fetchRender (takeTurn s) = some (w, { takeTurn s with rIn := ws }) := by
  simp [fetchRender, hren, h]

/-- The R-port without a word takes none, during a RENDER or not (R73). -/
theorem fetchRender_nil {s : State} (h : s.rIn = []) : fetchRender (takeTurn s) = none := by
  simp [fetchRender, h]

/-! ### Steps -/

/-- The C-port's turn with a legal word (R72). -/
theorem step_control_ok {s : State} {w : CmdWord} {ws : List CmdWord} {i : Instr} (hturn : nextTurn s = .control)
    (hin : s.cIn = w :: ws) (hd : decodeAt .control w = .ok i) : step s = exec i { takeTurn s with cIn := ws } := by
  rw [step_eq_runTurn hturn, runTurn, fetchControl_cons hin]
  exact runWord_ok hd _

/-- The R-port's turn with a legal word, between RENDERs (R73). -/
theorem step_audio_ok {s : State} {w : CmdWord} {ws : List CmdWord} {i : Instr} (hturn : nextTurn s = .audio)
    (hren : s.rendering = false) (hin : s.rIn = w :: ws) (hd : decodeAt .render w = .ok i) :
    step s = exec i { takeTurn s with rIn := ws } := by
  rw [step_eq_runTurn hturn, runTurn, fetchRender_cons hren hin]
  exact runWord_ok hd _

/-- The engine's turn (R71, R216). -/
theorem step_engine {s : State} (hturn : nextTurn s = .engine) : step s = .next (engineStep (takeTurn s)) :=
  step_eq_runTurn hturn

/-- Between RENDERs the engine has no step (R291). -/
theorem engineStep_idle {s : State} (h : s.rendering = false) : engineStep s = s := by
  simp [engineStep, h]

/-- Settles O8: the equations of a turn, and the step at each port. -/
theorem stepRunsTheDecodedCommand : Obligations.StepRunsTheDecodedCommand :=
  ⟨fun _ _ _ h => ⟨nextTurn_cons h, takeTurn_cons h⟩, fun _ h => ⟨nextTurn_nil h, takeTurn_nil h⟩,
    fun _ _ _ _ => step_control_ok, fun _ _ _ _ => step_audio_ok⟩

/-- Settles O10: a port that fetches no word runs nothing, and the engine is idle between RENDERs. -/
theorem idleTurnsChangeNothing : Obligations.IdleTurnsChangeNothing := by
  refine ⟨fun s hturn hin => ?_, fun s hturn hin => ?_, fun s hturn hidle => ?_⟩
  · rw [step_eq_runTurn hturn, runTurn, fetchControl_nil hin, runPort]
  · rw [step_eq_runTurn hturn, runTurn, fetchRender_nil hin, runPort]
  · rw [step_engine hturn, engineStep_idle (by simpa using hidle)]

/-- Settles O12: every step and every command answers a next state, whatever else is known of it. -/
theorem everyStepAnswersANextState : Obligations.EveryStepAnswersANextState := by
  refine ⟨fun s => ?_, fun i s => ?_⟩
  · obtain ⟨t, ht, -⟩ := step_next_cfg s
    exact ⟨t, ht⟩
  · obtain ⟨t, ht, -⟩ := exec_next_cfg i s
    exact ⟨t, ht⟩

/-! ### The response stream -/

/-- The lifecycle check appends no response where the checked operation appends none (R279). -/
theorem whenInited_resp {s done : State} (h : done.resp = s.resp) : (whenInited s done).resp = s.resp := by
  rcases whenInited_cases s done with ⟨-, he⟩ | ⟨-, he⟩ <;> rw [he]
  exact h

/-- A register read appends one response, its value or 0 (R76, R78). -/
theorem answer_resp (v : Option Word) (s : State) : ∃ w, (answer v s).resp = s.resp ++ [w] := by
  rcases answer_cases v s with ⟨w, -, he⟩ | ⟨-, he⟩ <;> rw [he]
  · exact ⟨w, rfl⟩
  · exact ⟨0, rfl⟩

/-- The lifecycle check of a register read appends one response as well (R78, R279). -/
theorem whenInitedResp_answer_resp (v : Option Word) (s : State) :
    ∃ w, (whenInitedResp s (answer v s)).resp = s.resp ++ [w] := by
  rcases whenInitedResp_cases s (answer v s) with ⟨-, he⟩ | ⟨-, he⟩ <;> rw [he]
  · exact answer_resp v s
  · exact ⟨0, rfl⟩

/-- An INIT appends its status, whatever it is (R260). -/
theorem execInit_resp (sr : Word) (s : State) : ∃ t, execInit sr s = .next t ∧ ∃ w, t.resp = s.resp ++ [w] := by
  rcases execInit_cases sr s with ⟨-, he⟩ | ⟨-, he⟩
  · exact ⟨_, he, _, rfl⟩
  · exact ⟨_, he, 0, rfl⟩

/-- What a command leaves of the response stream: one word more if it responds, and otherwise what was (R78). -/
def Answered (i : Instr) (s t : State) : Prop :=
  if i.responds then ∃ v, t.resp = s.resp ++ [v] else t.resp = s.resp

/-- Every command answers as often as its row of the opcode map says (R78, R104). -/
theorem exec_answered (i : Instr) (s : State) : ∃ t, exec i s = .next t ∧ Answered i s t := by
  cases i with
  | init sr => exact execInit_resp sr s
  | deinit => exact ⟨_, rfl, whenInited_resp rfl⟩
  | rdstat => exact ⟨_, rfl, _, respond_resp ..⟩
  | play note vel freq => exact ⟨_, rfl, whenInited_resp (evqPush_resp ..)⟩
  | stop note imm => exact ⟨_, rfl, whenInited_resp (evqPush_resp ..)⟩
  | pedal down => exact ⟨_, rfl, whenInited_resp (evqPush_resp ..)⟩
  | wrp reg value => exact ⟨_, rfl, whenInited_resp (storeShadow_resp ..)⟩
  | rdp reg => exact ⟨_, rfl, whenInitedResp_answer_resp ..⟩
  | setdb index value => exact ⟨_, rfl, whenInited_resp (storeShadow_resp ..)⟩
  | getdb index => exact ⟨_, rfl, whenInitedResp_answer_resp ..⟩
  | sethl index value => exact ⟨_, rfl, whenInited_resp (storeShadow_resp ..)⟩
  | gethl index => exact ⟨_, rfl, whenInitedResp_answer_resp ..⟩
  | render ch n => exact ⟨_, rfl, rfl⟩

/-- Settles O35, both parts by what every command leaves of the response stream. -/
theorem respondersAnswerExactlyOnce : Obligations.RespondersAnswerExactlyOnce := by
  intro i s t h
  obtain ⟨t', ht', hanswered⟩ := exec_answered i s
  obtain rfl : t' = t := Host.Outcome.next.inj (ht'.symm.trans h)
  exact ⟨fun hr => by rwa [Answered, if_pos hr] at hanswered, fun hr => by simpa [Answered, hr] using hanswered⟩

end Sys2Proof.Machine
end

section
/-! PROOFS. A hard cut silences its note (O47): no two slots sound one note, so the slot that STOP cuts was the only one. -/

namespace Sys2Proof.Machine

/-- In a sound pool two slots that sound one note are one slot (R59 (c)). -/
theorem Pool.Ok.eq_of_playing {nv : Nat} {pl : Pool} (h : pl.Ok nv) {note : BitVec 7} {i j : Nat}
    (hi : i < pl.voices.length) (hj : j < pl.voices.length) (hpi : pl.voices[i].playing note = true)
    (hpj : pl.voices[j].playing note = true) : i = j := by
  have apart (a b : Nat) (ha : a < pl.voices.length) (hb : b < pl.voices.length) (hab : a < b)
      (hpa : pl.voices[a].playing note = true) (hpb : pl.voices[b].playing note = true) : False := by
    obtain ⟨hsa, hna⟩ := (playing_iff ..).1 hpa
    obtain ⟨hsb, hnb⟩ := (playing_iff ..).1 hpb
    exact (clashes_iff ..).1 (List.pairwise_iff_getElem.1 h.unique a b ha hb hab) ⟨hsa, hsb, hna.trans hnb.symm⟩
  rcases Nat.lt_trichotomy i j with hlt | heq | hgt
  · exact (apart i j hi hj hlt hpi hpj).elim
  · exact heq
  · exact (apart j i hj hi hgt hpj hpi).elim

/-- An immediate STOP leaves no slot of a sound pool sounding its note (R137, R138). -/
theorem Pool.Ok.not_playing_applyStop_cut {nv : Nat} {pl : Pool} (h : pl.Ok nv) (b : Bank) (sr : Word) (note : BitVec 7) :
    ∀ w ∈ (Machine.applyStop b sr note true pl).voices, w.playing note = false := by
  unfold Machine.applyStop
  split
  · rename_i i hi
    obtain ⟨hlt, hplays, -⟩ := List.findIdx?_eq_some_iff_getElem.1 hi
    intro w hw
    obtain ⟨j, hj, rfl⟩ := List.getElem_of_mem hw
    rw [List.length_modify] at hj
    rw [List.getElem_modify]
    split
    · rfl
    · rename_i hne
      exact Bool.eq_false_iff.2 fun hother => hne (h.eq_of_playing hlt hj hplays hother)
  · rename_i hnone
    exact List.findIdx?_eq_none_iff.1 hnone

/-- The event of an immediate STOP is a STOP with the flag set (R131, R133). -/
theorem applyEvent_cut (b : Bank) (sr : Word) (note : BitVec 7) (pl : Pool) :
    applyEvent b sr pl ⟨.stop, note, 1, 0⟩ = applyStop b sr note true pl := by
  simp [applyEvent]

/-- Settles O47: the pool is sound after the PLAY, and then the STOP cuts the only slot that sounds the note. -/
theorem playThenHardCutNeverSounds : Obligations.PlayThenHardCutNeverSounds := by
  intro b sr note vel freq pl nv hok w hw
  have hdrain : applyEvents b sr [⟨.play, note, vel, freq⟩, ⟨.stop, note, 1, 0⟩] pl =
      applyStop b sr note true (applyPlay note vel freq pl) := applyEvent_cut ..
  rw [hdrain] at hw
  have hquiet : w.playing note = false := (hok.applyPlay note vel freq).not_playing_applyStop_cut b sr note w hw
  by_cases hidle : w.stage = .idle
  · exact .inl hidle
  · exact .inr fun hnote => Bool.eq_false_iff.1 hquiet ((playing_iff ..).2 ⟨hidle, hnote⟩)

end Sys2Proof.Machine
end

section
/-! PROOFS. A C-port command commutes with a sample step (O36): the command writes the control side only, the sample step neither reads nor
writes it, and what the command reads besides stays, but for `rendering` at the last sample step of a RENDER. -/

namespace Sys2Proof.Machine

/-! ### The control side -/

/-- The groups of state a C-port command other than an accepted INIT writes (R20, R246; `ControlEffect`). -/
structure ControlSide where
  inited : Bool
  initStat : BitVec 8
  flags : Flags
  shadow : Bank
  evq : List Event
  resp : List Word

/-- The control side of a state. -/
def State.control (s : State) : ControlSide := ⟨s.inited, s.initStat, s.flags, s.shadow, s.evq, s.resp⟩

/-- The state with another control side. -/
def State.setControl (c : ControlSide) (s : State) : State :=
  { s with inited := c.inited, initStat := c.initStat, flags := c.flags, shadow := c.shadow, evq := c.evq, resp := c.resp }

/-- A sample step writes nothing of the control side (R87). -/
theorem control_sampleStep (s : State) : (sampleStep s).control = s.control := by
  simp [State.control]

/-- A sample step reads nothing of the control side (R87). -/
theorem setControl_sampleStep (c : ControlSide) (s : State) :
    (sampleStep s).setControl c = sampleStep (s.setControl c) := by
  have hseq : (s.setControl c).seq = s.seq := rfl
  unfold sampleStep
  rw [hseq]
  split <;> rfl

/-- An operation that sets the control side from what it was commutes with a sample step. -/
theorem comm_sampleStep_of_setControl {f : State → State} (g : ControlSide → ControlSide)
    (hf : ∀ t, f t = t.setControl (g t.control)) (s : State) : f (sampleStep s) = sampleStep (f s) := by
  rw [hf, hf, control_sampleStep, setControl_sampleStep]

/-! ### The shared operations -/

theorem raise_sampleStep (c : Cond) (s : State) : raise c (sampleStep s) = sampleStep (raise c s) :=
  comm_sampleStep_of_setControl (fun k => { k with flags := k.flags.set c }) (fun _ => rfl) s

theorem respond_sampleStep (v : Word) (s : State) : respond v (sampleStep s) = sampleStep (respond v s) :=
  comm_sampleStep_of_setControl (fun k => { k with resp := k.resp ++ [v] }) (fun _ => rfl) s

/-- A discarded responder answers 0 and raises its condition (R275, R279). -/
theorem raise_respond_sampleStep (c : Cond) (s : State) :
    raise c (respond 0 (sampleStep s)) = sampleStep (raise c (respond 0 s)) := by
  rw [respond_sampleStep, raise_sampleStep]

/-- The queue belongs to the control side but for its capacity, which nothing changes (R7, R79). -/
theorem evqPush_sampleStep (e : Event) (s : State) : evqPush e (sampleStep s) = sampleStep (evqPush e s) := by
  unfold evqPush
  rw [apply_ite sampleStep, raise_sampleStep]
  congr 1
  · rw [sampleStep_cfg, sampleStep_evq]
  · exact comm_sampleStep_of_setControl (fun k => { k with evq := k.evq ++ [e] }) (fun _ => rfl) s

/-- A write to the shadow bank, by a function of the bank (R76). -/
theorem storeShadow_sampleStep (write : Bank → Option Bank) (s : State) :
    storeShadow (write (sampleStep s).shadow) (sampleStep s) = sampleStep (storeShadow (write s.shadow) s) := by
  rw [sampleStep_shadow]
  cases write s.shadow with
  | some b => exact comm_sampleStep_of_setControl (f := storeShadow (some b)) (fun k => { k with shadow := b }) (fun _ => rfl) s
  | none => exact raise_sampleStep .badIdx s

/-- A read of the shadow bank or the sample rate, which no sample step changes (R41, R76). -/
theorem answer_sampleStep (read : Word → Bank → Option Word) (s : State) :
    answer (read (sampleStep s).sr (sampleStep s).shadow) (sampleStep s) = sampleStep (answer (read s.sr s.shadow) s) := by
  rw [sampleStep_sr, sampleStep_shadow]
  cases read s.sr s.shadow with
  | some v => exact respond_sampleStep v s
  | none => exact raise_respond_sampleStep .badIdx s

/-- The lifecycle check commutes with a sample step where the checked operation does (R279). -/
theorem whenInited_sampleStep {f : State → State} {s : State} (h : f (sampleStep s) = sampleStep (f s)) :
    whenInited (sampleStep s) (f (sampleStep s)) = sampleStep (whenInited s (f s)) := by
  unfold whenInited
  rw [sampleStep_inited, apply_ite sampleStep, h, raise_sampleStep]

/-- The same for a responder (R279). -/
theorem whenInitedResp_sampleStep {f : State → State} {s : State} (h : f (sampleStep s) = sampleStep (f s)) :
    whenInitedResp (sampleStep s) (f (sampleStep s)) = sampleStep (whenInitedResp s (f s)) := by
  unfold whenInitedResp
  rw [sampleStep_inited, apply_ite sampleStep, h, raise_respond_sampleStep]

/-! ### The commands that do not see `rendering` -/

/-- The command and a sample step lead to one state, whichever is first. -/
def CommutesWithSample (i : Instr) (s : State) : Prop :=
  ∃ u, exec i s = .next u ∧ exec i (sampleStep s) = .next (sampleStep u)

/-- A command whose meaning is one operation commutes with a sample step where the operation does. -/
theorem commutesWithSample_of_comm {i : Instr} {s : State} {f : State → State} (hexec : ∀ t, exec i t = .next (f t))
    (h : f (sampleStep s) = sampleStep (f s)) : CommutesWithSample i s :=
  ⟨f s, hexec s, by rw [hexec, h]⟩

/-- A note command (R130, R131, R132). -/
theorem commutesWithSample_event {i : Instr} (e : Event) (hexec : ∀ t, exec i t = .next (whenInited t (evqPush e t)))
    (s : State) : CommutesWithSample i s :=
  commutesWithSample_of_comm hexec (whenInited_sampleStep (evqPush_sampleStep e s))

/-- A parameter write (R240, R242, R244). -/
theorem commutesWithSample_write {i : Instr} (write : Bank → Option Bank)
    (hexec : ∀ t, exec i t = .next (whenInited t (storeShadow (write t.shadow) t))) (s : State) : CommutesWithSample i s :=
  commutesWithSample_of_comm hexec
    (whenInited_sampleStep (f := fun t => storeShadow (write t.shadow) t) (storeShadow_sampleStep write s))

/-- A parameter read (R241, R243, R245). -/
theorem commutesWithSample_read {i : Instr} (read : Word → Bank → Option Word)
    (hexec : ∀ t, exec i t = .next (whenInitedResp t (answer (read t.sr t.shadow) t))) (s : State) :
    CommutesWithSample i s :=
  commutesWithSample_of_comm hexec
    (whenInitedResp_sampleStep (f := fun t => answer (read t.sr t.shadow) t) (answer_sampleStep read s))

/-- DEINIT clears `inited`, which no sample step sees (R216, R262). -/
theorem commutesWithSample_deinit (s : State) : CommutesWithSample .deinit s :=
  commutesWithSample_of_comm (fun _ => rfl)
    (whenInited_sampleStep (f := fun t => { t with inited := false })
      (comm_sampleStep_of_setControl (fun k => { k with inited := false }) (fun _ => rfl) s))

/-- A C-port command other than INIT and RDSTAT sees nothing of a sample step (R71, R87). -/
theorem commutesWithSample_of_control {i : Instr} (hport : i.port = .control) (hinit : ∀ sr, i ≠ .init sr)
    (hrdstat : i ≠ .rdstat) (s : State) : CommutesWithSample i s := by
  cases i with
  | init sr => exact absurd rfl (hinit sr)
  | deinit => exact commutesWithSample_deinit s
  | rdstat => exact absurd rfl hrdstat
  | play note vel freq => exact commutesWithSample_event _ (fun _ => rfl) s
  | stop note imm => exact commutesWithSample_event _ (fun _ => rfl) s
  | pedal down => exact commutesWithSample_event _ (fun _ => rfl) s
  | wrp reg value => exact commutesWithSample_write (·.writeParam reg value) (fun _ => rfl) s
  | rdp reg =>
    exact commutesWithSample_read (fun sr b => if reg = srateNumber then some sr else b.readParam reg) (fun _ => rfl) s
  | setdb index value => exact commutesWithSample_write (·.writeDrawbar index value) (fun _ => rfl) s
  | getdb index => exact commutesWithSample_read (fun _ b => b.readDrawbar index) (fun _ => rfl) s
  | sethl index value => exact commutesWithSample_write (·.writeHarmonic index value) (fun _ => rfl) s
  | gethl index => exact commutesWithSample_read (fun _ b => b.readHarmonic index) (fun _ => rfl) s
  | render ch n => cases hport

/-! ### INIT and RDSTAT -/

/-- Any sample step but the last keeps the RENDER in progress (R216). -/
theorem sampleStep_rendering_of_rem_ne_one {s : State} (h : s.seq.rem ≠ 1) : (sampleStep s).rendering = s.rendering := by
  have hdue : s.seq.rem - 1 ≠ 0 := by bv_omega
  rw [sampleStep_rendering, if_neg hdue]

theorem initStatus_sampleStep {s : State} (h : (sampleStep s).rendering = s.rendering) (sr : Word) :
    initStatus sr (sampleStep s) = initStatus sr s := by
  simp only [initStatus, sampleStep_inited, sampleStep_cfg, h]

theorem statusWord_sampleStep {s : State} (h : (sampleStep s).rendering = s.rendering) :
    statusWord (sampleStep s) = statusWord s := by
  simp only [statusWord, sampleStep_inited, sampleStep_flags, sampleStep_initStat, h]

/-- What a refused INIT leaves: its status, recorded and answered (R260). -/
def recordStatus (status : BitVec 8) (s : State) : State :=
  { s with initStat := status, resp := s.resp ++ [status.setWidth 32] }

theorem execInit_of_refused {sr : Word} {s : State} (h : initStatus sr s ≠ 0) :
    execInit sr s = .next (recordStatus (initStatus sr s) s) := by
  rcases execInit_cases sr s with ⟨-, he⟩ | ⟨h0, -⟩
  · exact he
  · exact absurd h0 h

/-- A RENDER in progress refuses every INIT, and a sample step that does not end it changes neither status (R260). -/
theorem commutesWithSample_init {s : State} (sr : Word) (hren : s.rendering = true)
    (hgoes : (sampleStep s).rendering = s.rendering) : CommutesWithSample (.init sr) s := by
  have hrefused : initStatus sr s ≠ 0 := fun h0 => by
    obtain ⟨-, hidle, -⟩ := accepted_of_initStatus h0
    exact absurd hidle (by simp [hren])
  have hsame := initStatus_sampleStep hgoes sr
  refine ⟨_, execInit_of_refused hrefused, (execInit_of_refused (by rwa [hsame])).trans ?_⟩
  rw [hsame]
  exact congrArg _ (comm_sampleStep_of_setControl (f := recordStatus (initStatus sr s))
    (fun k => { k with initStat := initStatus sr s, resp := k.resp ++ [(initStatus sr s).setWidth 32] }) (fun _ => rfl) s)

/-- RDSTAT sees of a sample step only whether the RENDER goes on (R22, R264). -/
theorem commutesWithSample_rdstat {s : State} (hgoes : (sampleStep s).rendering = s.rendering) :
    CommutesWithSample .rdstat s := by
  refine commutesWithSample_of_comm (f := fun t => respond (statusWord t) t) (fun _ => rfl) ?_
  rw [statusWord_sampleStep hgoes, respond_sampleStep]

/-- Settles O36: a command that does not see `rendering` commutes with every sample step, INIT and RDSTAT with those that leave it. -/
theorem controlCommandsCommuteWithSamples : Obligations.ControlCommandsCommuteWithSamples := by
  refine ⟨fun i s hport hinit hrdstat => commutesWithSample_of_control hport hinit hrdstat s, fun i s hport hren hrem => ?_⟩
  have hgoes := sampleStep_rendering_of_rem_ne_one hrem
  by_cases hinit : ∃ sr, i = .init sr
  · obtain ⟨sr, rfl⟩ := hinit
    exact commutesWithSample_init sr hren hgoes
  · by_cases hrdstat : i = .rdstat
    · subst hrdstat
      exact commutesWithSample_rdstat hgoes
    · exact commutesWithSample_of_control hport (fun sr hi => hinit ⟨sr, hi⟩) hrdstat s

end Sys2Proof.Machine
end

section
/-! PROOFS. An accepted RENDER completes (O28): while it runs, every engine step brings its end one turn nearer, and every sample due is
written once, where no later sample is written. -/

namespace Sys2Proof.Machine

/-! ### A RENDER in progress -/

/-- How many engine steps a RENDER still takes: its samples, and the chunk starts of those beyond the chunk that is open (R216). -/
def turnsDue (q : Sequencer) : Nat := q.rem.toNat + (q.rem.toNat - q.left + 15) / 16

/-- Sample `j` of the RENDER is still to be written (R56). -/
def SampleDue (s : State) (j : Nat) : Prop := s.seq.sIdx.toNat ≤ j ∧ j < s.seq.sIdx.toNat + s.seq.rem.toNat

/-- The sequencer on its way through a RENDER: within its bounds, `rendering` set as long as samples are due, and an open chunk live exactly if
the device is initialised (R56, R216). -/
structure RenderOpen (s : State) : Prop where
  bounds : SequencerOk s
  rendering_of_due : 0 < s.seq.rem.toNat → s.rendering = true
  live : 0 < s.seq.left → s.seq.live = s.inited

/-- `u` is `s` with the RENDER in progress completed: every sample due is written, to all channels alike, and no other element is (R77, R225,
R227). -/
structure RenderDone (s u : State) : Prop where
  rendering : u.rendering = false
  rem : u.seq.rem = 0
  sIdx : u.seq.sIdx.toNat = s.seq.sIdx.toNat + s.seq.rem.toNat
  inited : u.inited = s.inited
  written : ∀ j, SampleDue s j → ∃ o : Sample, (∀ c < s.seq.chN.toNat, u.out.read (outAddr s.renderNo j c) = some o) ∧
    (s.inited = false → o = 0)
  kept : ∀ a, (∀ j, SampleDue s j → ∀ c < s.seq.chN.toNat, a ≠ outAddr s.renderNo j c) → u.out.read a = s.out.read a

/-- With no sample due the RENDER is complete. -/
theorem RenderOpen.done {s : State} (h : RenderOpen s) (hrem : s.seq.rem.toNat = 0) : RenderDone s s where
  rendering := by
    have hdue := h.bounds.due
    rw [hrem] at hdue
    exact Bool.eq_false_iff.2 fun hren => absurd (hdue hren) (by decide)
  rem := BitVec.eq_of_toNat_eq hrem
  sIdx := by rw [hrem, Nat.add_zero]
  inited := rfl
  written j hj := by
    obtain ⟨hlo, hhi⟩ := hj
    omega
  kept _ _ := rfl

/-! ### Taking the turn -/

theorem SequencerOk.takeTurn {s : State} (h : SequencerOk s) : SequencerOk (takeTurn s) where
  left_le := by simpa using h.left_le
  due := by simpa using h.due
  left_due := by simpa using h.left_due
  index_fits := by simpa using h.index_fits
  closed := by simpa using h.closed

theorem RenderOpen.takeTurn {s : State} (h : RenderOpen s) : RenderOpen (takeTurn s) where
  bounds := h.bounds.takeTurn
  rendering_of_due := by simpa using h.rendering_of_due
  live := by simpa using h.live

/-- Taking the turn moves nothing that the completion of a RENDER speaks of. -/
theorem RenderDone.of_takeTurn {s u : State} (h : RenderDone (takeTurn s) u) : RenderDone s u where
  rendering := h.rendering
  rem := h.rem
  sIdx := by simpa using h.sIdx
  inited := by simpa using h.inited
  written := by simpa [SampleDue] using h.written
  kept := by simpa [SampleDue] using h.kept

/-! ### The chunk start -/

/-- A chunk start opens a chunk of at most 16 of the samples due (R216). -/
theorem RenderOpen.chunkStart {s : State} (h : RenderOpen s) (hrem : 0 < s.seq.rem.toNat) : RenderOpen (chunkStart s) where
  bounds :=
    { left_le := by simp
      due := by simpa using h.bounds.due
      left_due := by simp
      index_fits := by simpa using h.bounds.index_fits
      closed := fun hidle => absurd (h.rendering_of_due hrem) (by simpa using hidle) }
  rendering_of_due := by simpa using h.rendering_of_due
  live := by simp

/-- A chunk start is one of the steps the RENDER takes. -/
theorem turnsDue_chunkStart {s : State} (hrem : 0 < s.seq.rem.toNat) (hleft : s.seq.left = 0) :
    turnsDue s.seq = turnsDue (chunkStart s).seq + 1 := by
  simp only [turnsDue, chunkStart_seq, hleft, chunkSize]
  omega

/-- A chunk start writes no sample and moves no counter (R216). -/
theorem RenderDone.of_chunkStart {s u : State} (hdone : RenderDone (chunkStart s) u) : RenderDone s u where
  rendering := hdone.rendering
  rem := hdone.rem
  sIdx := by simpa using hdone.sIdx
  inited := by simpa using hdone.inited
  written := by simpa [SampleDue] using hdone.written
  kept := by simpa [SampleDue] using hdone.kept

/-! ### The sample step -/

section sampleStep
variable {s : State} (h : RenderOpen s) (hrem : 0 < s.seq.rem.toNat)
include h hrem

/-- A sample step writes one of the samples due and leaves the chunk as it is but one shorter (R216). -/
theorem RenderOpen.sampleStep : RenderOpen (sampleStep s) where
  bounds := h.bounds.sampleStep (h.rendering_of_due hrem)
  rendering_of_due hdue := by
    rw [sampleStep_seq] at hdue
    have hpred := h.bounds.rem_pred (h.rendering_of_due hrem)
    exact (h.bounds.sampleStep_rendering_iff (h.rendering_of_due hrem)).2 (by dsimp only at hdue; omega)
  live hleft := by
    rw [sampleStep_seq] at hleft ⊢
    rw [sampleStep_inited]
    exact h.live (by dsimp only at hleft; omega)

/-- A sample step is one of the steps the RENDER takes. -/
theorem turnsDue_sampleStep (hleft : 0 < s.seq.left) : turnsDue s.seq = turnsDue (Machine.sampleStep s).seq + 1 := by
  have hpred := h.bounds.rem_pred (h.rendering_of_due hrem)
  simp only [turnsDue, sampleStep_seq, hpred]
  omega

/-- The samples due are the one at the index and those due after it is written. -/
theorem sampleDue_iff (j : Nat) : SampleDue s j ↔ j = s.seq.sIdx.toNat ∨ SampleDue (Machine.sampleStep s) j := by
  have hpred := h.bounds.rem_pred (h.rendering_of_due hrem)
  have hsucc := h.bounds.sIdx_succ (h.rendering_of_due hrem)
  simp only [SampleDue, sampleStep_seq, hpred, hsucc]
  omega

/-- No element of the sample at the index is one of a sample due after it (R77). -/
theorem outAddr_ne_of_due {j c c' : Nat} (hj : SampleDue (Machine.sampleStep s) j) (hc : c < s.seq.chN.toNat)
    (hc' : c' < s.seq.chN.toNat) : outAddr s.renderNo s.seq.sIdx.toNat c ≠ outAddr s.renderNo j c' := by
  have hfits := h.bounds.index_fits (h.rendering_of_due hrem)
  have hpred := h.bounds.rem_pred (h.rendering_of_due hrem)
  have hsucc := h.bounds.sIdx_succ (h.rendering_of_due hrem)
  have hch := s.seq.chN.isLt
  simp only [SampleDue, sampleStep_seq, hpred, hsucc] at hj
  intro heq
  obtain ⟨-, hidx, -⟩ := outAddr_inj (by omega) (by omega) (by omega) (by omega) heq
  omega

/-- A RENDER that completes after a sample step completes with the sample written, and what is due after it untouched (R225, R227). -/
theorem RenderDone.of_sampleStep (hleft : 0 < s.seq.left) {u : State} (hdone : RenderDone (Machine.sampleStep s) u) :
    RenderDone s u where
  rendering := hdone.rendering
  rem := hdone.rem
  sIdx := by
    have hpred := h.bounds.rem_pred (h.rendering_of_due hrem)
    have hsucc := h.bounds.sIdx_succ (h.rendering_of_due hrem)
    have hend := hdone.sIdx
    simp only [sampleStep_seq, hpred, hsucc] at hend
    omega
  inited := by simpa using hdone.inited
  written j hj := by
    rcases (sampleDue_iff h hrem j).1 hj with rfl | hlater
    · refine ⟨if s.seq.live then sampleOut s else 0, fun c hc => ?_, fun hcold => ?_⟩
      · rw [hdone.kept _ fun j' hj' c' hc' => ?_, sampleStep_out, Memory.read_writeChannels_same _ _ _ _ _ _ hc]
        rw [sampleStep_renderNo]
        exact outAddr_ne_of_due h hrem hj' hc hc'
      · rw [h.live hleft, hcold]; rfl
    · simpa using hdone.written j hlater
  kept a ha := by
    rw [hdone.kept a fun j hj c hc => ?_, sampleStep_out, Memory.read_writeChannels_other]
    · exact ha _ ((sampleDue_iff h hrem _).2 (.inl rfl))
    · rw [sampleStep_renderNo]
      exact ha j ((sampleDue_iff h hrem j).2 (.inr hj)) c hc

end sampleStep

/-! ### The run -/

/-- What one engine step does to a RENDER in progress: it stays in progress, one step less is due, and what completes it after the step
completes it (R216). -/
theorem RenderOpen.engineStep {s : State} (h : RenderOpen s) (hrem : 0 < s.seq.rem.toNat) :
    RenderOpen (engineStep s) ∧ turnsDue s.seq = turnsDue (engineStep s).seq + 1 ∧
      ∀ u, RenderDone (engineStep s) u → RenderDone s u := by
  rcases engineStep_cases s with ⟨hidle, -⟩ | ⟨-, hleft, he⟩ | ⟨-, hleft, he⟩
  · exact absurd (h.rendering_of_due hrem) (by simp [hidle])
  · rw [he]
    exact ⟨h.chunkStart hrem, turnsDue_chunkStart hrem hleft, fun u => RenderDone.of_chunkStart⟩
  · rw [he]
    exact ⟨h.sampleStep hrem, turnsDue_sampleStep h hrem hleft, fun u => RenderDone.of_sampleStep h hrem hleft⟩

@[simp] theorem engineStep_sched (s : State) : (engineStep s).sched = s.sched := by
  rw [(engineEffect_engineStep s).frame]

/-- A RENDER in progress completes in as many engine turns as it has due, whatever turns follow (R71, R216). -/
theorem RenderOpen.run {k : Nat} {s : State} {rest : List Turn} (h : RenderOpen s) (hk : turnsDue s.seq = k)
    (hsched : s.sched = List.replicate k .engine ++ rest) :
    ∃ u, Host.Core.run core k s = .next u ∧ RenderDone s u ∧ u.sched = rest := by
  induction k generalizing s with
  | zero =>
    have hrem : s.seq.rem.toNat = 0 := by unfold turnsDue at hk; omega
    exact ⟨s, rfl, h.done hrem, hsched⟩
  | succ k ih =>
    have hcons : s.sched = .engine :: (List.replicate k .engine ++ rest) := hsched
    have hrem : 0 < s.seq.rem.toNat := by
      unfold turnsDue at hk; omega
    have hturn : turnsDue (Machine.takeTurn s).seq = k + 1 := by rw [takeTurn_seq, hk]
    obtain ⟨hopen, hdue, hback⟩ := h.takeTurn.engineStep (by simpa using hrem)
    obtain ⟨u, hrun, hdone, hrest⟩ := ih hopen (by omega) (by rw [engineStep_sched, takeTurn_cons hcons])
    exact ⟨u, (run_succ (step_engine (nextTurn_cons hcons))).trans hrun, (hback u hdone).of_takeTurn, hrest⟩

/-- A RENDER that has just been accepted is in progress (R215). -/
theorem renderOpen_of_accepted {s : State} (hren : s.rendering = true) (hleft : s.seq.left = 0) (hidx : s.seq.sIdx = 0)
    (hrem : 0 < s.seq.rem.toNat) : RenderOpen s where
  bounds :=
    { left_le := by simp [hleft]
      due := fun _ => hrem
      left_due := by simp [hleft]
      index_fits := fun _ => by simpa [hidx] using s.seq.rem.isLt
      closed := fun _ => hleft }
  rendering_of_due _ := hren
  live hpos := absurd hpos (by simp [hleft])

/-- Settles O28: right after the acceptance `n` samples and their chunk starts are due, and they complete the RENDER. -/
theorem renderCompletes : Obligations.RenderCompletes := by
  intro s n rest hren hleft hidx hn hpos hsched
  have hopen := renderOpen_of_accepted hren hleft hidx (by omega)
  have hturns : turnsDue s.seq = (n + 15) / 16 + n := by
    rw [turnsDue, hleft, hn, Nat.sub_zero, Nat.add_comm]
  have hdueIff (j : Nat) : SampleDue s j ↔ j < n := by simp [SampleDue, hidx, hn]
  obtain ⟨u, hrun, hdone, hrest⟩ := hopen.run hturns hsched
  refine ⟨u, hrun, hdone.rendering, hdone.rem, ?_, hrest, hdone.inited, fun j hj => ?_, fun a ha => ?_⟩
  · simpa [hidx, hn] using hdone.sIdx
  · exact hdone.written j ((hdueIff j).2 hj)
  · exact hdone.kept a fun j hj => ha j ((hdueIff j).1 hj)

end Sys2Proof.Machine
end

section
/-! PROOFS. The encoding (O1 to O7): at most one row of the opcode map accepts a word, so the decoder answers with the operands of that row;
and the bits that the row reserves are zero in the word, so the operands are the whole of it. -/

namespace Sys2Proof

/-! ### The rows of the opcode map -/

/-- The opcodes of the map are distinct (R104). -/
theorem row_eq_of_opcField_eq :
    ∀ r ∈ opcodeTable, ∀ r' ∈ opcodeTable, opcField r.pattern = opcField r'.pattern → r = r' := by decide

/-- The opcode of each mnemonic (R104). -/
def Mnemonic.opcode : Mnemonic → BitVec 8
  | .INIT => 0x01
  | .DEINIT => 0x02
  | .RDSTAT => 0x03
  | .PLAY => 0x10
  | .STOP => 0x11
  | .PEDAL => 0x12
  | .WRP => 0x20
  | .RDP => 0x21
  | .SETDB => 0x30
  | .GETDB => 0x31
  | .SETHL => 0x32
  | .GETHL => 0x33
  | .RENDER => 0x40

theorem opcField_pattern : ∀ r ∈ opcodeTable, opcField r.pattern = r.name.opcode := by decide

/-- A word that a row accepts carries the opcode of the row's mnemonic (R103, R104). -/
theorem opcField_eq_opcode_of_accepts {w : CmdWord} {r : OpcodeRow} (hr : r ∈ opcodeTable) (h : r.accepts w = true) :
    opcField w = r.name.opcode := by
  rw [opcField_of_accepts w r hr h, opcField_pattern r hr]

/-- The opcodes of the map, as numbers: all others are reserved (R104, R108). -/
theorem opcField_pattern_mem :
    ∀ r ∈ opcodeTable, (opcField r.pattern).toNat ∈
      [0x01, 0x02, 0x03, 0x10, 0x11, 0x12, 0x20, 0x21, 0x30, 0x31, 0x32, 0x33, 0x40] := by decide

/-- Settles O3: every mask covers the opcode field, and the opcodes of the rows are distinct. -/
theorem atMostOneOpcodeRowMatches : Obligations.AtMostOneOpcodeRowMatches := by
  intro w r r' hr hr' h h'
  have hopc : opcField r.pattern = opcField r'.pattern := by
    rw [← opcField_of_accepts w r hr h, opcField_of_accepts w r' hr' h']
  exact row_eq_of_opcField_eq r hr r' hr' hopc

/-! ### The decoder -/

/-- The decoder answers with the operands of the row that accepts the word, wherever that row stands in the map (R103). -/
theorem decodeWord_of_accepts {w : CmdWord} {r : OpcodeRow} (hr : r ∈ opcodeTable) (h : r.accepts w = true) :
    decodeWord w = .ok (operands r.name w) := by
  unfold decodeWord
  split
  next r' hfind =>
    have hr' : r' ∈ opcodeTable := List.mem_of_find?_eq_some hfind
    have h' : r'.accepts w = true := by simpa using List.find?_some hfind
    rw [atMostOneOpcodeRowMatches w r r' hr hr' h h']
  next hnone => exact absurd h (List.find?_eq_none.1 hnone r hr)

/-- A word whose opcode is in no row is refused for its opcode (R108). -/
theorem decodeWord_of_unknownOpcode {w : CmdWord} (h : ∀ r ∈ opcodeTable, opcField r.pattern ≠ opcField w) :
    decodeWord w = .error .reservedOpcode := by
  have hfind : opcodeTable.find? (fun r => r.accepts w) = none :=
    List.find?_eq_none.2 fun r hr hacc => h r hr (opcField_of_accepts w r hr hacc).symm
  have hknown : knownOpcode w = false := by simpa [knownOpcode] using h
  simp [decodeWord, hfind, hknown]

/-- The port decides whether a word that decodes is legal (R110). -/
theorem decodeAt_of_decodeWord_ok {w : CmdWord} {i : Instr} (p : Port) (h : decodeWord w = .ok i) :
    decodeAt p w = if i.port = p then .ok i else .error .wrongPort := by
  rw [decodeAt, h]

/-- A word that the decoder refuses is refused on either port, for the same reason. -/
theorem decodeAt_of_decodeWord_error {w : CmdWord} {e : Illegal} (p : Port) (h : decodeWord w = .error e) :
    decodeAt p w = .error e := by
  rw [decodeAt, h]

/-- The word of every command belongs to a row of its port and carries its operands (R103 to R105, R110). -/
theorem rowOfEncode (i : Instr) : Laws.RowOfEncode.Statement i := by
  cases i with
  | init sr => exact Laws.RowOfEncode.init sr
  | deinit => exact Laws.RowOfEncode.deinit
  | rdstat => exact Laws.RowOfEncode.rdstat
  | play note vel freq => exact Laws.RowOfEncode.play note vel freq
  | stop note imm => exact Laws.RowOfEncode.stop note imm
  | pedal down => exact Laws.RowOfEncode.pedal down
  | wrp reg value => exact Laws.RowOfEncode.wrp reg value
  | rdp reg => exact Laws.RowOfEncode.rdp reg
  | setdb index value => exact Laws.RowOfEncode.setdb index value
  | getdb index => exact Laws.RowOfEncode.getdb index
  | sethl index value => exact Laws.RowOfEncode.sethl index value
  | gethl index => exact Laws.RowOfEncode.gethl index
  | render ch n => exact Laws.RowOfEncode.render ch n

theorem decodeWord_encode (i : Instr) : decodeWord (encode i) = .ok i := by
  obtain ⟨r, hr, hacc, hops, -⟩ := rowOfEncode i
  rw [decodeWord_of_accepts hr hacc, hops]

/-- What a port answers to the word of a command (R103, R110). -/
theorem decodeAt_encode (p : Port) (i : Instr) :
    decodeAt p (encode i) = if i.port = p then .ok i else .error .wrongPort :=
  decodeAt_of_decodeWord_ok p (decodeWord_encode i)

/-- Settles O1: the word belongs to the command's row, and the decoder reads that row. -/
theorem decodeOfEncodeGivesTheCommand : Obligations.DecodeOfEncodeGivesTheCommand := by
  intro p i hport
  rw [decodeAt_encode, if_pos hport]

/-! ### Reserved bits -/

/-- The `n` bits from bit `k` on must be zero in a word of the row: the mask covers them and the pattern has them clear (R107). -/
abbrev OpcodeRow.Reserves (r : OpcodeRow) (k n : Nat) : Prop :=
  r.mask.extractLsb' k n = BitVec.allOnes n ∧ r.pattern.extractLsb' k n = 0

theorem OpcodeRow.Reserves.eq_zero {r : OpcodeRow} {k n : Nat} {w : CmdWord} (h : r.Reserves k n)
    (hacc : r.accepts w = true) : w.extractLsb' k n = 0 := by
  obtain ⟨hmask, hpattern⟩ := h
  have hand : w &&& r.mask = r.pattern := beq_iff_eq.1 hacc
  calc w.extractLsb' k n
      = w.extractLsb' k n &&& r.mask.extractLsb' k n := by rw [hmask, BitVec.and_allOnes]
    _ = (w &&& r.mask).extractLsb' k n := BitVec.extractLsb'_and.symm
    _ = 0 := by rw [hand, hpattern]

/-- A word is its fields packed, once Z is zero (R101). -/
theorem packWord_fields {w : CmdWord} {o a b : BitVec 8} {d : Word} (ho : opcField w = o) (ha : a = aField w)
    (hb : b = w.extractLsb' 40 8) (hz : w.extractLsb' 32 8 = 0) (hd : d = dField w) : packWord o a b d = w := by
  rw [packWord_eq, ha, hb, hd, ← ho, ← hz]
  exact (word_eq_fields w).symm

/-- Bits above a field that are all clear add nothing to it. -/
theorem extractLsb'_setWidth_of_high_zero {w : CmdWord} {k m n : Nat} (h : w.extractLsb' (k + m) n = 0) :
    (w.extractLsb' k m).setWidth (m + n) = w.extractLsb' k (m + n) := by
  apply BitVec.eq_of_getLsbD_eq
  intro i hi
  rw [BitVec.getLsbD_setWidth, BitVec.getLsbD_extractLsb', BitVec.getLsbD_extractLsb']
  by_cases him : i < m
  · simp [him, hi]
  · have hbit : w.getLsbD (k + i) = false := by
      have hclear := congrArg (BitVec.getLsbD · (i - m)) h
      simpa [show i - m < n by omega, show k + m + (i - m) = k + i by omega] using hclear
    simp [him, hbit]

/-- With bit 55 clear the note operand is the whole of A (R105, R107). -/
theorem noteField_setWidth {w : CmdWord} (h : w.extractLsb' 55 1 = 0) : (noteField w).setWidth 8 = aField w :=
  extractLsb'_setWidth_of_high_zero (k := 48) (m := 7) (n := 1) h

/-- With bit 47 clear the velocity operand is the whole of B (R105, R107). -/
theorem velField_setWidth {w : CmdWord} (h : w.extractLsb' 47 1 = 0) :
    (velField w).setWidth 8 = w.extractLsb' 40 8 :=
  extractLsb'_setWidth_of_high_zero (k := 40) (m := 7) (n := 1) h

/-- With bits 47:41 clear the flag operand is the whole of B (R105, R107). -/
theorem flagByte_flagField {w : CmdWord} (h : w.extractLsb' 41 7 = 0) :
    flagByte (flagField w) = w.extractLsb' 40 8 := by
  have hbit : BitVec.ofBool (flagField w) = w.extractLsb' 40 1 := by
    apply BitVec.eq_of_getLsbD_eq
    intro i hi
    simp [flagField, show i = 0 by omega]
  rw [flagByte, hbit]
  exact extractLsb'_setWidth_of_high_zero (k := 40) (m := 1) (n := 7) h

/-! ### What the rows reserve -/

/-- No row has an operand in Z (R107). -/
theorem reserves_z : ∀ r ∈ opcodeTable, r.Reserves 32 8 := by decide

/-- The lifecycle commands have no operand in A, and neither has PEDAL (R107). -/
theorem reserves_a : ∀ r ∈ opcodeTable,
    let o := r.name.opcode.toNat
    o = 0x01 ∨ o = 0x02 ∨ o = 0x03 ∨ o = 0x12 → r.Reserves 48 8 := by decide

/-- Of the commands only PLAY, STOP and PEDAL have an operand in B (R107). -/
theorem reserves_b : ∀ r ∈ opcodeTable,
    let o := r.name.opcode.toNat
    o = 0x01 ∨ o = 0x02 ∨ o = 0x03 ∨ o = 0x20 ∨ o = 0x21 ∨ o = 0x30 ∨ o = 0x31 ∨ o = 0x32 ∨ o = 0x33 ∨ o = 0x40 →
      r.Reserves 40 8 := by decide

/-- The commands without a data word (R107). -/
theorem reserves_d : ∀ r ∈ opcodeTable,
    let o := r.name.opcode.toNat
    o = 0x02 ∨ o = 0x03 ∨ o = 0x11 ∨ o = 0x12 ∨ o = 0x21 ∨ o = 0x31 ∨ o = 0x33 → r.Reserves 0 32 := by decide

/-- A note has seven bits (R105, R107). -/
theorem reserves_noteTop : ∀ r ∈ opcodeTable,
    let o := r.name.opcode.toNat
    o = 0x10 ∨ o = 0x11 → r.Reserves 55 1 := by decide

/-- A velocity has seven bits (R105, R107). -/
theorem reserves_velTop : ∀ r ∈ opcodeTable, r.name.opcode.toNat = 0x10 → r.Reserves 47 1 := by decide

/-- A flag has one bit (R105, R107). -/
theorem reserves_flagHigh : ∀ r ∈ opcodeTable,
    let o := r.name.opcode.toNat
    o = 0x11 ∨ o = 0x12 → r.Reserves 41 7 := by decide

/-! ### Every bit of a legal word is read -/

/-- The word of the operands that a row reads is the accepted word: what no operand holds is reserved (R101, R105, R107). -/
theorem encode_operands_of_accepts {w : CmdWord} {r : OpcodeRow} (hr : r ∈ opcodeTable) (h : r.accepts w = true) :
    encode (operands r.name w) = w := by
  have hopc := opcField_eq_opcode_of_accepts hr h
  have hz := (reserves_z r hr).eq_zero h
  have ha := fun ho => ((reserves_a r hr ho).eq_zero h).symm
  have hb := fun ho => ((reserves_b r hr ho).eq_zero h).symm
  have hd := fun ho => ((reserves_d r hr ho).eq_zero h).symm
  have hnote := fun ho => noteField_setWidth ((reserves_noteTop r hr ho).eq_zero h)
  have hvel := fun ho => velField_setWidth ((reserves_velTop r hr ho).eq_zero h)
  have hflag := fun ho => flagByte_flagField ((reserves_flagHigh r hr ho).eq_zero h)
  generalize r.name = m at hopc ha hb hd hnote hvel hflag ⊢
  cases m with
  | INIT => exact packWord_fields hopc (ha (by decide)) (hb (by decide)) hz rfl
  | DEINIT => exact packWord_fields hopc (ha (by decide)) (hb (by decide)) hz (hd (by decide))
  | RDSTAT => exact packWord_fields hopc (ha (by decide)) (hb (by decide)) hz (hd (by decide))
  | PLAY => exact packWord_fields hopc (hnote (by decide)) (hvel (by decide)) hz rfl
  | STOP => exact packWord_fields hopc (hnote (by decide)) (hflag (by decide)) hz (hd (by decide))
  | PEDAL => exact packWord_fields hopc (ha (by decide)) (hflag (by decide)) hz (hd (by decide))
  | WRP => exact packWord_fields hopc rfl (hb (by decide)) hz rfl
  | RDP => exact packWord_fields hopc rfl (hb (by decide)) hz (hd (by decide))
  | SETDB => exact packWord_fields hopc rfl (hb (by decide)) hz rfl
  | GETDB => exact packWord_fields hopc rfl (hb (by decide)) hz (hd (by decide))
  | SETHL => exact packWord_fields hopc rfl (hb (by decide)) hz rfl
  | GETHL => exact packWord_fields hopc rfl (hb (by decide)) hz (hd (by decide))
  | RENDER => exact packWord_fields hopc rfl (hb (by decide)) hz rfl

/-- Settles O2: the word belongs to the row it was decoded by, and that row reads or reserves every bit of it. -/
theorem encodeOfDecodeGivesTheWord : Obligations.EncodeOfDecodeGivesTheWord := by
  intro p w i hdec
  obtain ⟨r, hr, hacc, rfl, hport⟩ := decodeAt_ok p w i hdec
  exact ⟨encode_operands_of_accepts hr hacc, hport⟩

/-! ### Illegal words -/

/-- Settles O5: no row has a reserved opcode. -/
theorem reservedOpcodesAreIllegal : Obligations.ReservedOpcodesAreIllegal := by
  have hrefused (p : Port) (w : CmdWord) (hw : ∀ r ∈ opcodeTable, opcField r.pattern ≠ opcField w) :
      decodeAt p w = .error .reservedOpcode :=
    decodeAt_of_decodeWord_error p (decodeWord_of_unknownOpcode hw)
  refine ⟨fun p w => ?_, fun p => hrefused p 0 (by decide)⟩
  intro o ho
  refine hrefused p w fun r hr heq => ?_
  have hmem := opcField_pattern_mem r hr
  rw [show (opcField r.pattern).toNat = o from congrArg BitVec.toNat heq] at hmem
  simp only [List.mem_cons, List.not_mem_nil, or_false] at hmem
  omega

/-- A one-bit range that is zero is a bit that is not set. -/
theorem not_getLsbD_of_extractLsb'_one {w : CmdWord} {k : Nat} (h : w.extractLsb' k 1 = 0) : ¬ w.getLsbD k = true := by
  simpa using congrArg (BitVec.getLsbD · 0) h

/-- Settles O6: a word that decodes is accepted by a row of its opcode, and each bit of the list is one that this row reserves. -/
theorem mustBeZeroBitsAreIllegal : Obligations.MustBeZeroBitsAreIllegal := by
  intro p w o a b z d hset
  cases hdec : decodeAt p w with
  | error e => exact ⟨e, rfl⟩
  | ok i =>
    exfalso
    obtain ⟨r, hr, hacc, -, -⟩ := decodeAt_ok p w i hdec
    have hopc : o = r.name.opcode.toNat := congrArg BitVec.toNat (opcField_eq_opcode_of_accepts hr hacc)
    rw [hopc] at hset
    rcases hset with hz | ⟨ho, hab⟩ | ⟨ho, hd⟩ | ⟨ho, hbit⟩ | ⟨ho, hbit⟩ | ⟨ho, hflag⟩ | ⟨ho, ha⟩ | ⟨ho, hb⟩
    · exact hz ((reserves_z r hr).eq_zero hacc)
    · have ha : a = 0 := (reserves_a r hr (by tauto)).eq_zero hacc
      have hb : b = 0 := (reserves_b r hr (by tauto)).eq_zero hacc
      exact hab.elim (· ha) (· hb)
    · exact hd ((reserves_d r hr ho).eq_zero hacc)
    · exact not_getLsbD_of_extractLsb'_one ((reserves_noteTop r hr ho).eq_zero hacc) hbit
    · exact not_getLsbD_of_extractLsb'_one ((reserves_velTop r hr ho).eq_zero hacc) hbit
    · exact hflag ((reserves_flagHigh r hr ho).eq_zero hacc)
    · exact ha ((reserves_a r hr (by tauto)).eq_zero hacc)
    · exact hb ((reserves_b r hr (by tauto)).eq_zero hacc)

/-! ### Ports -/

/-- RENDER is the one command of the R-port (R110). -/
theorem Instr.port_eq_render_iff (i : Instr) : i.port = .render ↔ ∃ ch n, i = .render ch n := by
  cases i <;> simp [Instr.port]

/-- Settles O7: a legal word has the port of its command, and the word of any other command is refused there for its port. -/
theorem commandsAreLegalOnTheirPortOnly : Obligations.CommandsAreLegalOnTheirPortOnly := by
  refine ⟨fun p w i hdec => ?_, fun i hi => ?_, fun ch n => ?_⟩
  · obtain ⟨-, -, -, -, rfl⟩ := decodeAt_ok p w i hdec
    exact i.port_eq_render_iff
  · have hport : i.port ≠ .render := fun h => by
      obtain ⟨ch, n, hin⟩ := i.port_eq_render_iff.1 h
      exact hi ch n hin
    rw [decodeAt_encode, if_neg hport]
  · rw [decodeAt_encode, if_neg (by simp [Instr.port])]

/-! ### The examples of the spec -/

/-- A word decodes to the command it is the word of. -/
theorem decodeAt_of_encode_eq {i : Instr} {w : CmdWord} (h : encode i = w) : decodeAt i.port w = .ok i := by
  rw [← h, decodeAt_encode, if_pos rfl]

/-- Settles O4: each word of R115 is the word of its command. -/
theorem encodingExamplesOfTheSpec : Obligations.EncodingExamplesOfTheSpec := by
  have hplay : encode (.play 60 100 0x0105A148) = 0x103C64000105A148 := by decide
  have hbytes : ofWordBytes [0x48, 0xA1, 0x05, 0x01, 0x00, 0x64, 0x3C, 0x10] = some 0x103C64000105A148 := by decide
  refine ⟨decodeAt_of_encode_eq (i := .init 44100) (by decide), decodeAt_of_encode_eq hplay,
    decodeAt_of_encode_eq (i := .stop 60 true) (by decide), decodeAt_of_encode_eq (i := .wrp 0x05 0x400) (by decide),
    decodeAt_of_encode_eq (i := .gethl 3) (by decide), decodeAt_of_encode_eq (i := .render 1 512) (by decide), hplay,
    by decide, ?_⟩
  rw [decodeBytes, hbytes]
  exact decodeAt_of_encode_eq hplay

end Sys2Proof
end

section
/-! PROOFS. Note control: what PLAY, STOP and PEDAL queue at the C-port (O18 to O20), and what the queued events do to the voice
pool: the slot a PLAY takes (O43) and starts (O44), the slot a STOP acts on (O45), and the pedal going up (O46). -/

namespace Sys2Proof.Machine

/-! ### Queueing an event -/

/-- What the three note commands share: the event is queued where there is room, EVQOVF is raised on a full queue and NOTINIT on a
device that is not initialised (R130 to R132). -/
theorem queueEvent_outcomes (e : Event) (s : State) :
    (s.inited = true → s.evq.length < s.cfg.evqDepth → whenInited s (evqPush e s) = { s with evq := s.evq ++ [e] }) ∧
    (s.inited = true → s.cfg.evqDepth ≤ s.evq.length →
      whenInited s (evqPush e s) = { s with flags := { s.flags with evqOvf := true } }) ∧
    (s.inited = false → whenInited s (evqPush e s) = { s with flags := { s.flags with notInit := true } }) := by
  rcases whenInited_cases s (evqPush e s) with ⟨hinit, hdone⟩ | ⟨hinit, hdone⟩
  · rw [hdone]
    rcases evqPush_cases e s with ⟨hroom, hpush⟩ | ⟨hfull, hpush⟩
    · exact ⟨fun _ _ => hpush, fun _ hfull => absurd hroom (by omega), fun hcold => by simp [hinit] at hcold⟩
    · exact ⟨fun _ hroom => absurd hfull (by omega), fun _ _ => hpush, fun hcold => by simp [hinit] at hcold⟩
  · exact ⟨fun hwarm => by simp [hinit] at hwarm, fun hwarm => by simp [hinit] at hwarm, fun _ => hdone⟩

/-- A command that queues an event after the lifecycle check answers one of the three outcomes. -/
theorem exec_queueEvent {i : Instr} {e : Event} {s : State} (hexec : exec i s = .next (whenInited s (evqPush e s))) :
    (s.inited = true → s.evq.length < s.cfg.evqDepth → exec i s = .next { s with evq := s.evq ++ [e] }) ∧
    (s.inited = true → s.cfg.evqDepth ≤ s.evq.length →
      exec i s = .next { s with flags := { s.flags with evqOvf := true } }) ∧
    (s.inited = false → exec i s = .next { s with flags := { s.flags with notInit := true } }) := by
  obtain ⟨hroom, hfull, hcold⟩ := queueEvent_outcomes e s
  rw [hexec]
  exact ⟨fun hi hq => congrArg _ (hroom hi hq), fun hi hq => congrArg _ (hfull hi hq), fun hi => congrArg _ (hcold hi)⟩

/-- A flag in the argument of an event is the number 1 or 0 (R46). -/
theorem flagArg_eq (f : Bool) : (BitVec.ofBool f).setWidth 7 = if f then 1 else 0 := by
  cases f <;> rfl

/-- Bit 0 of the argument of an event is its flag (R46). -/
theorem flagArg_bit0 (f : Bool) : (if f then 1 else 0 : BitVec 7).getLsbD 0 = f := by
  cases f <;> rfl

/-- Settles O18: PLAY queues its event. -/
theorem playQueuesOneEvent : Obligations.PlayQueuesOneEvent :=
  fun note vel freq s => exec_queueEvent (i := .play note vel freq) (s := s) rfl

/-- Settles O19: STOP queues its event, the flag as its argument. -/
theorem stopQueuesOneEvent : Obligations.StopQueuesOneEvent := by
  intro note imm s
  rw [← flagArg_eq]
  exact exec_queueEvent (i := .stop note imm) rfl

/-- Settles O20: PEDAL queues its event, the flag as its argument. -/
theorem pedalQueuesOneEvent : Obligations.PedalQueuesOneEvent := by
  intro down s
  rw [← flagArg_eq]
  exact exec_queueEvent (i := .pedal down) rfl

/-! ### The events in terms of their operands (R133) -/

theorem applyEvent_play (b : Bank) (sr : Word) (note vel : BitVec 7) (freq : Word) (pl : Pool) :
    applyEvent b sr pl ⟨.play, note, vel, freq⟩ = applyPlay note vel freq pl := rfl

theorem applyEvent_stop (b : Bank) (sr : Word) (note : BitVec 7) (imm : Bool) (pl : Pool) :
    applyEvent b sr pl ⟨.stop, note, if imm then 1 else 0, 0⟩ = applyStop b sr note imm pl :=
  congrArg (applyStop b sr note · pl) (flagArg_bit0 imm)

theorem applyEvent_pedal (b : Bank) (sr : Word) (down : Bool) (pl : Pool) :
    applyEvent b sr pl ⟨.pedal, 0, if down then 1 else 0, 0⟩ = applyPedal b sr down pl :=
  congrArg (applyPedal b sr · pl) (flagArg_bit0 down)

/-! ### The slot a PLAY takes -/

/-- The age of a slot in natural numbers (R135). -/
theorem Voice.age_eq (now : Word) (v : Voice) : v.age now = (now.toNat + 2 ^ 32 - v.serial.toNat) % 2 ^ 32 := by
  have hserial := v.serial.isLt
  rw [Voice.age, BitVec.toNat_sub]
  congr 1
  omega

/-- A slot does not sound the note. -/
theorem not_playing_iff (note : BitVec 7) (w : Voice) : w.playing note = false ↔ ¬ (w.stage ≠ .idle ∧ w.note = note) := by
  rw [← playing_iff, Bool.not_eq_true]

/-- A pool with slots always has one for a PLAY (R134). -/
theorem chooseSlot_isSome (now : Word) (note : BitVec 7) {vs : List Voice} (h : vs ≠ []) :
    ∃ i, chooseSlot now note vs = some i :=
  Option.ne_none_iff_exists'.1 fun hnone => h (chooseSlot_none now note vs hnone)

/-- Settles O43: the four cases of the choice, with `playing` and `age` spelled out. -/
theorem playTakesTheSlotInOrder : Obligations.PlayTakesTheSlotInOrder := by
  refine ⟨fun now note vs => chooseSlot_isSome now note, fun now note vs i hi => ?_⟩
  simpa only [not_playing_iff, playing_iff, Voice.age_eq] using chooseSlot_cases now note vs i hi

/-- The slot a PLAY takes is a slot of the pool. -/
theorem chooseSlot_lt {now : Word} {note : BitVec 7} {vs : List Voice} {i : Nat} (h : chooseSlot now note vs = some i) :
    i < vs.length := by
  obtain ⟨v, hv, -⟩ := chooseSlot_cases now note vs i h
  exact getElem?_lt hv

/-- A PLAY that takes slot `i` starts it, stamps it and counts (R136). -/
theorem applyPlay_of_chosen {note : BitVec 7} {pl : Pool} {i : Nat} (h : chooseSlot pl.noteSerial note pl.voices = some i)
    (vel : BitVec 7) (freq : Word) :
    applyPlay note vel freq pl =
      { pl with voices := pl.voices.set i (startedVoice note vel freq pl.noteSerial), noteSerial := pl.noteSerial + 1 } := by
  simp only [applyPlay, h]

theorem startedVoice_phase (note vel : BitVec 7) (freq serial : Word) (j : Fin 16) :
    (startedVoice note vel freq serial).phase[j] = 0 := voice_reset_phase j

/-- Settles O44: slot `i` holds the started voice, and the others are not written. -/
theorem playStartsTheChosenSlot : Obligations.PlayStartsTheChosenSlot := by
  intro b sr note vel freq pl i hi
  rw [applyEvent_play, applyPlay_of_chosen hi]
  refine ⟨rfl, BitVec.toNat_add .., List.length_set, fun j hj => List.getElem?_set_ne hj.symm,
    startedVoice note vel freq pl.noteSerial, List.getElem?_set_self (chooseSlot_lt hi), rfl, rfl, rfl, rfl,
    startedVoice_phase note vel freq _, rfl, rfl, rfl, rfl⟩

/-! ### Entering Release -/

section enterRelease

variable (b : Bank) (sr : Word) (v : Voice)

/-- A release of no samples cuts the level to 0 (R176). -/
theorem enterRelease_of_zero (h : durationSamples (b.reg regRelease) sr = 0) :
    enterRelease b sr v = { v with stage := .release, level := 0, relStep := 0, sustained := false } := by
  simp only [enterRelease, if_pos h]

/-- A release of some samples keeps the level and takes the step that reaches 0 in them (R176). -/
theorem enterRelease_of_ne_zero (h : durationSamples (b.reg regRelease) sr ≠ 0) :
    enterRelease b sr v =
      { v with stage := .release, relStep := (enterRelease b sr v).relStep, sustained := false } := by
  simp only [enterRelease, if_neg h]

/-- The step of a release of some samples, not cut by its width: it is no larger than the level (R176). -/
theorem enterRelease_relStep_toNat (h : durationSamples (b.reg regRelease) sr ≠ 0) :
    (enterRelease b sr v).relStep.toNat = cdiv v.level.toNat (durationSamples (b.reg regRelease) sr) := by
  have hstep := cdiv_le v.level.toNat _ h
  have hlevel := v.level.isLt
  simp only [enterRelease, if_neg h]
  rw [BitVec.toNat_ofNat, Nat.mod_eq_of_lt (by omega)]

end enterRelease

/-! ### The slot a STOP acts on -/

/-- A STOP of a note that no slot sounds does nothing (R137). -/
theorem applyStop_of_none {note : BitVec 7} {pl : Pool} (h : ∀ w ∈ pl.voices, w.playing note = false) (b : Bank) (sr : Word)
    (imm : Bool) : applyStop b sr note imm pl = pl := by
  simp only [applyStop, List.findIdx?_eq_none_iff.2 h]

/-- A STOP writes the first slot that sounds the note and no other (R137). -/
theorem applyStop_of_first {note : BitVec 7} {pl : Pool} {i : Nat} {v : Voice} (hv : pl.voices[i]? = some v)
    (hplays : v.playing note = true) (hfirst : ∀ j w, j < i → pl.voices[j]? = some w → w.playing note = false) (b : Bank)
    (sr : Word) (imm : Bool) :
    applyStop b sr note imm pl = { pl with voices := pl.voices.modify i (stopVoice b sr pl.pedal imm) } := by
  obtain ⟨hlt, rfl⟩ := List.getElem?_eq_some_iff.1 hv
  have hfind : pl.voices.findIdx? (Voice.playing note) = some i :=
    List.findIdx?_eq_some_iff_getElem.2 ⟨hlt, hplays, fun j hj => by
      simpa using hfirst j _ hj (List.getElem?_eq_getElem (hj.trans hlt))⟩
  simp only [applyStop, hfind]

theorem stopVoice_cut (b : Bank) (sr : Word) (pedal : Bool) (v : Voice) : stopVoice b sr pedal true v = cutVoice v := rfl

theorem stopVoice_of_release {v : Voice} (h : v.stage = .release) (b : Bank) (sr : Word) (pedal : Bool) :
    stopVoice b sr pedal false v = v := by
  simp [stopVoice, h]

theorem stopVoice_of_pedal {v : Voice} (h : v.stage ≠ .release) (b : Bank) (sr : Word) :
    stopVoice b sr true false v = { v with sustained := true } := by
  simp [stopVoice, h]

theorem stopVoice_of_no_pedal {v : Voice} (h : v.stage ≠ .release) (b : Bank) (sr : Word) :
    stopVoice b sr false false v = enterRelease b sr v := by
  simp [stopVoice, h]

/-- Settles O45: the first slot that sounds the note takes what `stopVoice` makes of it, case by case. -/
theorem stopActsOnTheSoundingSlot : Obligations.StopActsOnTheSoundingSlot := by
  intro b sr note imm pl
  rw [applyEvent_stop]
  refine ⟨fun hnone => applyStop_of_none (fun w hw => (not_playing_iff note w).2 (hnone w hw)) b sr imm,
    fun i v hv hholds hfirst => ?_⟩
  rw [applyStop_of_first hv ((playing_iff note v).2 hholds)
    (fun j w hj hw => (not_playing_iff note w).2 (hfirst j w hj hw)) b sr imm]
  refine ⟨rfl, rfl, List.length_modify .., fun j hj => List.getElem?_modify_ne _ _ hj.symm,
    stopVoice b sr pl.pedal imm v, by simp [hv], ?_, ?_, ?_, ?_, ?_⟩
  · rintro rfl
    exact stopVoice_cut b sr pl.pedal v
  · rintro rfl hrel
    exact stopVoice_of_release hrel b sr pl.pedal
  · rintro rfl hrel hpedal
    rw [hpedal, stopVoice_of_pedal hrel]
  · rintro rfl hrel hpedal hzero
    rw [hpedal, stopVoice_of_no_pedal hrel]
    exact enterRelease_of_zero b sr v hzero
  · rintro rfl hrel hpedal hsome
    rw [hpedal, stopVoice_of_no_pedal hrel]
    exact ⟨enterRelease_relStep_toNat b sr v hsome, enterRelease_of_ne_zero b sr v hsome⟩

/-! ### The pedal -/

/-- The pedal going up releases the held slots (R139). -/
theorem applyPedal_up {pl : Pool} (h : pl.pedal = true) (b : Bank) (sr : Word) :
    applyPedal b sr false pl = { pl with voices := pl.voices.map (releaseHeld b sr), pedal := false } :=
  if_pos ⟨h, rfl⟩

/-- A PEDAL that does not lift a pressed pedal writes no slot (R139). -/
theorem applyPedal_of_not_up {pl : Pool} {down : Bool} (h : ¬ (pl.pedal = true ∧ down = false)) (b : Bank) (sr : Word) :
    applyPedal b sr down pl = { pl with pedal := down } :=
  if_neg h

theorem releaseHeld_of_held {v : Voice} (h : v.sustained = true) (b : Bank) (sr : Word) :
    releaseHeld b sr v = enterRelease b sr v :=
  if_pos h

theorem releaseHeld_of_not_held {v : Voice} (h : v.sustained = false) (b : Bank) (sr : Word) : releaseHeld b sr v = v :=
  if_neg (by simp [h])

/-- Settles O46: only a PEDAL that lifts a pressed pedal maps over the slots, and it leaves those that are not held. -/
theorem pedalUpReleasesTheHeldSlots : Obligations.PedalUpReleasesTheHeldSlots := by
  intro b sr down pl
  rw [applyEvent_pedal]
  by_cases hup : pl.pedal = true ∧ down = false
  · obtain ⟨hpedal, rfl⟩ := hup
    rw [applyPedal_up hpedal]
    refine ⟨rfl, rfl, List.length_map .., fun i v hv => ?_⟩
    have hslot : (pl.voices.map (releaseHeld b sr))[i]? = some (releaseHeld b sr v) := by
      rw [List.getElem?_map, hv, Option.map_some]
    refine ⟨fun _ _ hheld => ?_, fun hkept => ?_⟩
    · rw [hslot, releaseHeld_of_held hheld]
    · have hfree : v.sustained = false := by simpa [hpedal] using hkept
      rw [hslot, releaseHeld_of_not_held hfree]
  · rw [applyPedal_of_not_up hup]
    exact ⟨rfl, rfl, rfl, fun i v hv => ⟨fun hpedal hdown => absurd ⟨hpedal, hdown⟩ hup, fun _ => hv⟩⟩

end Sys2Proof.Machine
end

section
/-! PROOFS. The oscillator: the rotor increment and the vibrato of a PREP (O41), its frequency chain (O42), and one step of the
oscillator bank (O52). Each block-rate register is an equation in integers, so the chunk start only has to say which of them it fills. -/

namespace Sys2Proof.Machine

/-! ### The block-rate registers of a live chunk start -/

section chunkStart_live
variable {s : State} (h : s.inited = true)
include h

theorem chunkStart_live_rotorInc :
    (chunkStart s).br.rotorInc = rotorIncrement s.cfg s.sr (chunkStart s).leslieCur := by
  simp [chunkStart_live s h, prep_br]

theorem chunkStart_live_vib : (chunkStart s).br.vib = vibratoFactor s.cfg s.shadow s.vibPhase := by
  simp [chunkStart_live s h, prep_br]

theorem chunkStart_live_vibPhase :
    (chunkStart s).vibPhase = BitVec.ofNat 32 (s.vibPhase.toNat + min chunkSize s.seq.rem.toNat * s.vibInc.toNat) := by
  simp [chunkStart_live s h]

theorem chunkStart_live_g : (chunkStart s).br.g = globalFactor s.shadow (chunkStart s).br.vib := by
  simp [chunkStart_live s h, prep_br]

theorem chunkStart_live_incHalf :
    (chunkStart s).br.incHalf =
      (chunkStart s).pool.voices.map fun v => baseIncrement s.sr v.freq (chunkStart s).br.g := by
  simp [chunkStart_live s h, prep_br]

/-- The base increment of a slot of the pool as the chunk start leaves it (R153, R217). -/
theorem chunkStart_live_incOf {i : Nat} {v : Voice} (hv : (chunkStart s).pool.voices[i]? = some v) :
    (chunkStart s).br.incOf i = baseIncrement s.sr v.freq (chunkStart s).br.g := by
  rw [BlockRate.incOf, chunkStart_live_incHalf h, List.getD_eq_getElem?_getD, List.getElem?_map, hv]
  rfl

end chunkStart_live

/-! ### Saturation of values that cannot be negative -/

theorem satU32_toNat_of_nonneg {v : Int} (h : 0 ≤ v) : ((satU32 v).toNat : Int) = min v (2 ^ 32 - 1) := by
  rw [satU32_toNat]
  exact max_eq_right (le_min h (by norm_num))

theorem asr_nonneg {v : Int} (h : 0 ≤ v) (n : Nat) : 0 ≤ asr v n := Int.ediv_nonneg h (by positivity)

/-! ### The rotor increment, the vibrato factor and the frequency chain, in integers -/

theorem rotorIncrement_toNat (c : Params) (sr cur : Word) :
    (rotorIncrement c sr cur).toNat = cur.toNat * c.leslieK.toNat / sr.toNat % 2 ^ 32 :=
  BitVec.toNat_ofNat ..

theorem vibratoFactor_toNat (c : Params) (b : Bank) (vibPhase : Word) :
    ((vibratoFactor c b vibPhase).toNat : Int) =
      max 0 (min (65536 + (b.reg regVibDepth : Int) * sineAt c vibPhase / 2 ^ 15) (2 ^ 32 - 1)) :=
  satU32_toNat _

theorem pitchOffsetFactor_nonneg (b : Bank) : 0 ≤ pitchOffsetFactor b := le_max_left ..

/-- Only the upper saturation of R151 can act: the pitch-offset factor is cut at 0 beforehand (R28). -/
theorem globalFactor_toNat (b : Bank) (vib : Word) :
    ((globalFactor b vib).toNat : Int) =
      min (min ((b.reg regTuning : Int) * pitchOffsetFactor b / 2 ^ 16) (2 ^ 32 - 1) * (vib.toNat : Int) / 2 ^ 16) (2 ^ 32 - 1) := by
  have hpof : (0 : Int) ≤ b.reg regTuning * pitchOffsetFactor b :=
    mul_nonneg (Int.natCast_nonneg _) (pitchOffsetFactor_nonneg b)
  have hg1 := satU32_toNat_of_nonneg (asr_nonneg hpof 16)
  rw [globalFactor, satU32_toNat_of_nonneg (asr_nonneg (by positivity) 16), hg1]
  rfl

/-- No base increment is cut by the 48 bits of its register: it is at most 32768 times a saturated frequency (R55, R153). -/
theorem baseIncrement_toNat (sr freq g : Word) :
    (baseIncrement sr freq g).toNat = min (freq.toNat * g.toNat / 2 ^ 16) (2 ^ 32 - 1) * 32768 / sr.toNat := by
  have hfeff : (satU32 (asr (freq.toNat * g.toNat) 16)).toNat = min (freq.toNat * g.toNat / 2 ^ 16) (2 ^ 32 - 1) := by
    have hsat := satU32_toNat_of_nonneg (asr_nonneg (v := freq.toNat * g.toNat) (by positivity) 16)
    simp only [asr] at hsat ⊢
    omega
  have hfits : min (freq.toNat * g.toNat / 2 ^ 16) (2 ^ 32 - 1) * 32768 / sr.toNat < 2 ^ 48 :=
    (Nat.div_le_self _ _).trans_lt (by omega)
  rw [baseIncrement, hfeff, BitVec.toNat_ofNat]
  exact Nat.mod_eq_of_lt hfits

/-- Settles O41: the rotor increment is taken at the speed after the ramp, the vibrato factor at the phase before it advances. -/
theorem rotorIncrementAndVibratoOfPrep : Obligations.RotorIncrementAndVibratoOfPrep := by
  intro s hin
  refine ⟨?_, ?_, ?_⟩
  · rw [chunkStart_live_rotorInc hin, rotorIncrement_toNat]
  · rw [chunkStart_live_vib hin, vibratoFactor_toNat]
    rfl
  · rw [chunkStart_live_vibPhase hin, BitVec.toNat_ofNat]
    rfl

/-- Settles O42: the global factor from the vibrato factor of the same PREP, then one base increment for each slot. -/
theorem frequencyChainOfPrep : Obligations.FrequencyChainOfPrep := by
  intro s hin
  refine ⟨?_, ?_, fun i v hv => ?_⟩
  · rw [chunkStart_live_g hin, globalFactor_toNat]
    rfl
  · rw [chunkStart_live_incHalf hin, List.length_map]
  · rw [chunkStart_live_incOf hin hv, baseIncrement_toNat]

/-! ### The oscillator bank -/

/-- A sum over the first `n` indices as a sum over all `m`, the others left out. -/
theorem sum_map_range_eq_sum_fin {n m : Nat} (h : n ≤ m) (f : Nat → Int) :
    ((List.range n).map f).sum = ∑ j : Fin m, if j.val < n then f j else 0 := by
  have hfilter : (Finset.range m).filter (· < n) = Finset.range n := by
    ext j; simp only [Finset.mem_filter, Finset.mem_range]; omega
  calc ((List.range n).map f).sum
      = ∑ j ∈ Finset.range n, f j := rfl
    _ = ∑ j ∈ Finset.range m, if j < n then f j else 0 := by rw [← Finset.sum_filter, hfilter]
    _ = ∑ j : Fin m, if j.val < n then f j else 0 := Finset.sum_range _

theorem oscOut_eq_sum (c : Params) (b : Bank) (inc : BitVec 48) (v : Voice) :
    oscOut c b inc v =
      (∑ j : Fin 16, if j.val < partialCount b.mode then partialTerm c b inc v j else 0) / 2 ^ 15 := by
  rw [oscOut, sum_map_range_eq_sum_fin (partialCount_le b.mode)]
  rfl

/-- The term of a partial that has an accumulator: its phase is read before it advances (R155). -/
theorem partialTerm_of_fin (c : Params) (b : Bank) (inc : BitVec 48) (v : Voice) (j : Fin 16) :
    partialTerm c b inc v j =
      if partialMult2 c b.mode j * inc.toNat < 2 ^ 31 then
        (partialLevel b j : Int) * c.sine.getD (v.phase[j].toNat / 2 ^ 24) 0 else 0 := by
  rw [partialTerm, Vector.getElem?_eq_getElem j.isLt]
  rfl

theorem partialLevel_drawbar {b : Bank} (h : b.mode = .drawbar) (j : Nat) :
    partialLevel b j = min (b.db[j]?.getD 0).toNat 32768 := by
  rw [partialLevel, h]
  rfl

theorem partialLevel_harmonic {b : Bank} (h : b.mode = .harmonic) (j : Fin 16) :
    partialLevel b j = min (b.hl[j]).toNat 32768 := by
  rw [partialLevel, h, Vector.getElem?_eq_getElem j.isLt]
  rfl

theorem oscAdvance_toNat (c : Params) (mode : TimbreMode) (inc : BitVec 48) (v : Voice) (j : Fin 16) :
    ((oscAdvance c mode inc v)[j]).toNat =
      if j.val < partialCount mode then (v.phase[j].toNat + partialMult2 c mode j * inc.toNat) % 2 ^ 32
      else v.phase[j].toNat := by
  rw [oscAdvance, Fin.getElem_fin, Vector.getElem_ofFn, apply_ite BitVec.toNat, BitVec.toNat_ofNat]
  rfl

/-- Settles O52: partial by partial, the sum over the sixteen accumulators leaves out those past the mode's count and those not
audible; the advance asks for the count only. -/
theorem oscillatorBankStep : Obligations.OscillatorBankStep := by
  intro c b inc v
  refine ⟨?_, fun j => ?_⟩
  · rw [oscOut_eq_sum]
    refine congrArg (· / 2 ^ 15) (Finset.sum_congr rfl fun j _ => ?_)
    rw [partialTerm_of_fin, ite_and]
    cases hmode : b.mode with
    | drawbar => rw [partialLevel_drawbar hmode, Nat.cast_min]; rfl
    | harmonic => rw [partialLevel_harmonic hmode, Nat.cast_min]; rfl
  · rw [oscAdvance_toNat]
    rfl

end Sys2Proof.Machine
end

section
/-! PROOFS. The envelope: its constants (O39), the stage transitions of a PREP (O48), the level update of a sample (O49), and from the
update repeated the time a release (O50) and an attack (O51) takes. -/

namespace Sys2Proof.Machine

/-! ### The constants -/

/-- The attack step is rounded up, so its length in steps covers full scale (R171). -/
theorem attackStep_covers {n : Nat} (h : n ≠ 0) : envOne ≤ n * attackStep n := by
  rw [attackStep, if_neg h]
  exact cdiv_mul_ge _ _ h

/-- The decay step is rounded up, so its length in steps covers the way down to the sustain level (R171). -/
theorem decayStep_covers {n : Nat} (h : n ≠ 0) (sus : Nat) : envOne - sus ≤ n * decayStep n sus := by
  rw [decayStep, if_neg h]
  exact cdiv_mul_ge _ _ h

/-- Settles O39: no constant is cut by the width of its register, and a step rounded up covers the ramp in its length. -/
theorem envelopeConstantsOfPrep : Obligations.EnvelopeConstantsOfPrep := by
  intro b sr r
  have hatt := envelopeConstants_attStep b sr r
  have hdec := envelopeConstants_decStep b sr r
  refine ⟨envelopeConstants_susLvl b sr r, envelopeConstants_attN b sr r, envelopeConstants_decN b sr r, hatt, hdec,
    fun hattN => ?_, fun hdecN => ?_, rfl, rfl, rfl, rfl⟩
  · rw [hatt]
    exact attackStep_covers hattN
  · rw [hdec]
    exact decayStep_covers hdecN _

/-! ### The stage transitions -/

section stageTransition
variable (r : BlockRate) {v : Voice}

theorem stageTransition_of_idle (h : v.stage = .idle) : stageTransition r v = v := by
  simp only [stageTransition, endAttack, endDecay, holdSustain, endRelease, h, reduceCtorEq, false_and, if_false]

/-- A voice whose attack has ended is treated as one in Decay at full level, in the same PREP (R172). -/
theorem stageTransition_of_attack (h : v.stage = .attack) :
    stageTransition r v =
      if r.attN = 0 ∨ envOne ≤ v.level.toNat then
        stageTransition r { v with stage := .decay, level := BitVec.ofNat 31 envOne }
      else v := by
  by_cases hended : r.attN = 0 ∨ envOne ≤ v.level.toNat <;>
    simp only [stageTransition, endAttack, endDecay, holdSustain, endRelease, h, hended, reduceCtorEq, true_and, false_and,
      if_true, if_false]

theorem stageTransition_of_decay (h : v.stage = .decay) :
    stageTransition r v =
      if r.decN = 0 ∨ v.level.toNat ≤ r.susLvl.toNat then { v with stage := .sustain, level := r.susLvl } else v := by
  by_cases hended : r.decN = 0 ∨ v.level.toNat ≤ r.susLvl.toNat <;>
    simp only [stageTransition, endAttack, endDecay, holdSustain, endRelease, h, hended, reduceCtorEq, true_and, false_and,
      if_true, if_false]

theorem stageTransition_of_sustain (h : v.stage = .sustain) : stageTransition r v = { v with level := r.susLvl } := by
  simp only [stageTransition, endAttack, endDecay, holdSustain, endRelease, h, reduceCtorEq, false_and, if_true, if_false]

theorem stageTransition_of_release (h : v.stage = .release) :
    stageTransition r v = if v.level = 0 then { v with stage := .idle, sustained := false, relStep := 0 } else v := by
  simp only [stageTransition, endAttack, endDecay, holdSustain, endRelease, h, reduceCtorEq, true_and, false_and, if_false]

end stageTransition

/-- Settles O48, stage by stage; the two cases of an ended attack are those of a decay from full level. -/
theorem stageTransitionsOfPrep : Obligations.StageTransitionsOfPrep := by
  intro r v
  refine ⟨stageTransition_of_idle r, fun h hgoing => ?_, fun h hended hgoing => ?_, fun h hended hdone => ?_,
    fun h hgoing => ?_, fun h hended => ?_, stageTransition_of_sustain r, fun h hlevel => ?_, fun h hlevel => ?_⟩
  · exact (stageTransition_of_attack r h).trans (if_neg hgoing)
  · calc stageTransition r v
        = stageTransition r { v with stage := .decay, level := BitVec.ofNat 31 envOne } :=
          (stageTransition_of_attack r h).trans (if_pos hended)
      _ = { v with stage := .decay, level := 0x40000000#31 } := (stageTransition_of_decay r rfl).trans (if_neg hgoing)
  · calc stageTransition r v
        = stageTransition r { v with stage := .decay, level := BitVec.ofNat 31 envOne } :=
          (stageTransition_of_attack r h).trans (if_pos hended)
      _ = { v with stage := .sustain, level := r.susLvl } := (stageTransition_of_decay r rfl).trans (if_pos hdone)
  · exact (stageTransition_of_decay r h).trans (if_neg hgoing)
  · exact (stageTransition_of_decay r h).trans (if_pos hended)
  · exact (stageTransition_of_release r h).trans (if_neg hlevel)
  · exact (stageTransition_of_release r h).trans (if_pos hlevel)

/-! ### The level update of a sample -/

theorem envStep_of_idle (r : BlockRate) {v : Voice} (h : v.stage = .idle) : envStep r v = v := by simp only [envStep, h]

theorem envStep_of_sustain (r : BlockRate) {v : Voice} (h : v.stage = .sustain) : envStep r v = v := by
  simp only [envStep, h]

/-- The level stays within full scale (R174). -/
theorem envStep_level_le {r : BlockRate} {v : Voice} (hlevel : v.level.toNat ≤ 2 ^ 30) (hsus : r.susLvl.toNat ≤ 2 ^ 30) :
    (envStep r v).level.toNat ≤ 2 ^ 30 := by
  cases hstage : v.stage with
  | idle => rwa [envStep_of_idle r hstage]
  | attack => rw [envStep_attack_level r v hstage]; exact min_le_left _ _
  | decay => rw [envStep_decay_level r v hstage]; exact max_le hsus ((Nat.sub_le _ _).trans hlevel)
  | sustain => rwa [envStep_of_sustain r hstage]
  | release => rw [envStep_release_level r v hstage]; exact (Nat.sub_le _ _).trans hlevel

/-- Settles O49, stage by stage; where a level falls, the subtraction of the model stops at 0. -/
theorem envelopeStepMovesTheLevel : Obligations.EnvelopeStepMovesTheLevel := by
  intro r v hlevel hsus
  refine ⟨envStep_eq r v, envStep_level_le hlevel hsus, envStep_attack_level r v, fun hdecay => ?_,
    fun hsustain => by rw [envStep_of_sustain r hsustain], fun hrelease => ?_⟩
  · rw [envStep_decay_level r v hdecay]; omega
  · rw [envStep_release_level r v hrelease]; omega

/-! ### Samples one after another -/

section iterate
variable (r : BlockRate) (v : Voice) (k : Nat)

theorem iterate_envStep_stage : ((envStep r)^[k] v).stage = v.stage := by
  induction k with
  | zero => rfl
  | succ k ih => rw [Function.iterate_succ_apply', envStep_stage, ih]

theorem iterate_envStep_relStep : ((envStep r)^[k] v).relStep = v.relStep := by
  induction k with
  | zero => rfl
  | succ k ih => rw [Function.iterate_succ_apply', envStep_relStep, ih]

/-- After `k` samples of a release `k` steps are off the level, down to 0 (R174). -/
theorem iterate_envStep_release_level (h : v.stage = .release) :
    ((envStep r)^[k] v).level.toNat = v.level.toNat - k * v.relStep.toNat := by
  induction k with
  | zero => simp
  | succ k ih =>
    rw [Function.iterate_succ_apply', envStep_release_level _ _ (by rw [iterate_envStep_stage, h]), ih, iterate_envStep_relStep,
      Nat.sub_sub, Nat.succ_mul]

/-- After `k` samples of an attack `k` steps are on the level, up to full scale (R174). -/
theorem iterate_envStep_attack_level (h : v.stage = .attack) (hlevel : v.level.toNat ≤ 2 ^ 30) :
    ((envStep r)^[k] v).level.toNat = min (2 ^ 30) (v.level.toNat + k * r.attStep.toNat) := by
  induction k with
  | zero => simpa using hlevel
  | succ k ih =>
    rw [Function.iterate_succ_apply', envStep_attack_level _ _ (by rw [iterate_envStep_stage, h]), ih, Nat.succ_mul]
    omega

end iterate

/-- A release takes off its level in the release length: at once if that is 0, else by steps that cover it (R176, R178). -/
theorem enterRelease_level_le (b : Bank) (sr : Word) (v : Voice) :
    (enterRelease b sr v).level.toNat ≤ durationSamples (b.reg regRelease) sr * (enterRelease b sr v).relStep.toNat := by
  by_cases h : durationSamples (b.reg regRelease) sr = 0
  · simp [enterRelease_of_zero b sr v h]
  · rw [enterRelease_relStep_toNat b sr v h, enterRelease_of_ne_zero b sr v h]
    exact cdiv_mul_ge _ _ h

/-- Settles O50: the level falls by one fixed step a sample, and the release length times that step covers it. -/
theorem releaseReachesSilenceInItsTime : Obligations.ReleaseReachesSilenceInItsTime := by
  intro b sr r v relN after
  obtain ⟨hrelease, -⟩ := enterRelease_bounds b sr v
  have hstage (k : Nat) : (after k).stage = .release := (iterate_envStep_stage r _ k).trans hrelease
  refine ⟨hstage, fun k => ?_, fun k hk => ?_⟩
  · have hnext : after (k + 1) = envStep r (after k) := Function.iterate_succ_apply' ..
    rw [hnext, envStep_release_level _ _ (hstage k)]
    exact Nat.sub_le _ _
  · have hcovered := (enterRelease_level_le b sr v).trans (Nat.mul_le_mul_right _ hk)
    have hsilent : (after k).level = 0 := by
      apply BitVec.eq_of_toNat_eq
      rw [iterate_envStep_release_level r _ k hrelease]
      exact Nat.sub_eq_zero_of_le hcovered
    exact ⟨hsilent, by rw [stageTransition_of_release r (hstage k), if_pos hsilent]⟩

/-- Settles O51: the level rises by one fixed step a sample, and the attack length times that step covers full scale. -/
theorem attackReachesFullLevelInItsTime : Obligations.AttackReachesFullLevelInItsTime := by
  intro b sr r v e attN hattack hlevel hattN
  have hclimb (k : Nat) := iterate_envStep_attack_level e v k hattack hlevel
  refine ⟨hclimb, fun k hk => ?_⟩
  have hcovers : 2 ^ 30 ≤ attN * e.attStep.toNat := by
    rw [envelopeConstants_attStep]
    exact attackStep_covers hattN
  have hcovered := hcovers.trans (Nat.mul_le_mul_right _ hk)
  rw [hclimb k]
  exact min_eq_left (hcovered.trans (Nat.le_add_left _ _))

end Sys2Proof.Machine
end

section
/-! PROOFS. The value of a sample and where a sample step writes it (O59): each stage of `SAMPLE` as an equation in integers, and the laws
of the output space. -/

namespace Sys2Proof.Machine

/-- `VoiceOut` of a slot that sounds, as a number (R175, R221). -/
theorem voiceOut_of_sounding (c : Params) (b : Bank) (inc : BitVec 48) {v : Voice} (h : v.stage ≠ .idle) :
    voiceOut c b inc v =
      oscOut c b inc v * ((v.level.toNat / 2 ^ 15 : Nat) : Int) / 2 ^ 15 * (amplitude b v : Int) / 2 ^ 15 := by
  rw [voiceOut, if_neg h]
  rfl

/-- An Idle slot adds nothing to the mix (R220). -/
theorem voiceOut_of_idle (c : Params) (b : Bank) (inc : BitVec 48) {v : Voice} (h : v.stage = .idle) :
    voiceOut c b inc v = 0 := by
  rw [voiceOut, if_pos h]

/-- A sum may leave out the terms that are 0. -/
theorem sum_map_filter_of_zero {α : Type} (p : α → Prop) [DecidablePred p] (f : α → Int) (l : List α)
    (h : ∀ x ∈ l, ¬ p x → f x = 0) : ((l.filter p).map f).sum = (l.map f).sum := by
  rw [← List.sum_map_filter_add_sum_map_filter_not p f l, left_eq_add]
  refine List.sum_eq_zero fun y hy => ?_
  obtain ⟨x, hx, rfl⟩ := List.mem_map.1 hy
  obtain ⟨hmem, hnot⟩ := List.mem_filter.1 hx
  exact h x hmem (of_decide_eq_true hnot)

/-- The mix is the sum over the slots that are not Idle (R220, R223). -/
theorem mixVoices_eq_sum_sounding (s : State) :
    mixVoices s =
      ((s.pool.voices.zipIdx.filter fun x => decide (x.1.stage ≠ .idle)).map fun x =>
        voiceOut s.cfg s.active (s.br.incOf x.2) x.1).sum :=
  (sum_map_filter_of_zero (fun x : Voice × Nat => x.1.stage ≠ .idle) _ _
    fun _ _ hidle => voiceOut_of_idle _ _ _ (not_not.1 hidle)).symm

/-- `Master` in integers: the volume, then the saturation (R226). -/
theorem master_toInt (b : Bank) (l : Int) :
    (master b l).toInt = max (-32768) (min (l * (lim15 b.p[regMasterVol] : Int) / 2 ^ 15) 32767) :=
  satI16_toInt _

/-- Settles O59: the value is `Master` of the mix over the sounding slots; what a sample step does to the output space are the laws of
`writeChannels`. -/
theorem sampleStepWritesEveryChannel : Obligations.SampleStepWritesEveryChannel := by
  intro s slots mix l o
  have hmix : mixVoices s = mix :=
    (mixVoices_eq_sum_sounding s).trans <| congrArg List.sum <| List.map_congr_left fun x hx =>
      voiceOut_of_sounding _ _ _ (of_decide_eq_true (List.mem_filter.1 hx).2)
  refine ⟨?_, fun c hc => ?_, fun a ha => ?_, fun hwf => ?_⟩
  · rw [sampleOut, hmix, master_toInt]
    rfl
  · rw [sampleStep_out]
    exact Memory.read_writeChannels_same _ _ _ _ _ _ hc
  · rw [sampleStep_out]
    exact Memory.read_writeChannels_other _ _ _ _ _ _ ha
  · rw [sampleStep_out]
    exact Memory.wf_writeChannels _ _ _ _ _ hwf

end Sys2Proof.Machine
end

section
/-! PROOFS. The waveshaper (O53): the curve of R192 in integers, and the shape that R195 claims for it. The curve is a weighted mean of two
falling powers of `u = 1 - a`, which makes it rise with `a`; it is an odd function, so the shape on the magnitudes gives the whole. -/

namespace Sys2Proof.Machine

/-! ### The power loop -/

theorem powStep_mono {u u' pw pw' : Nat} (hu : u ≤ u') (hpw : pw ≤ pw') : powStep u pw ≤ powStep u' pw' :=
  Nat.div_le_div_right (Nat.mul_le_mul hpw hu)

theorem powLoop_mono {u u' : Nat} (h : u ≤ u') (k : Nat) : powLoop u k ≤ powLoop u' k := by
  induction k with
  | zero => exact h
  | succ k ih => exact powStep_mono h ih

/-- Full scale stands for 1, and 1 to any power is 1. -/
theorem powLoop_fullScale (k : Nat) : powLoop 32768 k = 32768 := by
  induction k with
  | zero => rfl
  | succ k ih => rw [powLoop, ih]; rfl

/-! ### The curve on a magnitude -/

/-- The lower of the two neighbouring integer powers, `u^n` (R192). -/
def lowerPower (pEff a : Nat) : Nat := powLoop (32768 - a) (pEff / 2 ^ 16 - 1)

/-- The upper of the two neighbouring integer powers, `u^(n+1)` (R192). -/
def upperPower (pEff a : Nat) : Nat := powStep (32768 - a) (lowerPower pEff a)

/-- The curve through its two powers (R192). -/
theorem shapeMagnitude_eq (pEff a : Nat) :
    shapeMagnitude pEff a =
      (32768 - lowerPower pEff a) +
        ((32768 - upperPower pEff a) - (32768 - lowerPower pEff a)) * (pEff % 2 ^ 16) / 2 ^ 16 := rfl

theorem lowerPower_le (pEff a : Nat) : lowerPower pEff a ≤ 32768 - a := powLoop_le _ _ (Nat.sub_le ..)

theorem upperPower_le (pEff a : Nat) : upperPower pEff a ≤ lowerPower pEff a := powStep_le _ _ (Nat.sub_le ..)

theorem lowerPower_anti (pEff : Nat) {a a' : Nat} (h : a ≤ a') : lowerPower pEff a' ≤ lowerPower pEff a :=
  powLoop_mono (Nat.sub_le_sub_left h _) _

theorem upperPower_anti (pEff : Nat) {a a' : Nat} (h : a ≤ a') : upperPower pEff a' ≤ upperPower pEff a :=
  powStep_mono (Nat.sub_le_sub_left h _) (lowerPower_anti pEff h)

/-- The curve as a mean of `1 - u^n` and `1 - u^(n+1)`, weighted by the fraction of the power and rounded down once: no term of it falls as
the magnitude rises. -/
theorem shapeMagnitude_eq_weightedMean (pEff a : Nat) :
    shapeMagnitude pEff a =
      ((32768 - lowerPower pEff a) * (2 ^ 16 - pEff % 2 ^ 16) + (32768 - upperPower pEff a) * (pEff % 2 ^ 16)) / 2 ^ 16 := by
  have hfr : pEff % 2 ^ 16 < 2 ^ 16 := Nat.mod_lt _ (by norm_num)
  have hy : 32768 - lowerPower pEff a ≤ 32768 - upperPower pEff a := Nat.sub_le_sub_left (upperPower_le pEff a) _
  rw [shapeMagnitude_eq, ← Nat.mul_add_div (by norm_num)]
  congr 1
  zify [hy, hfr.le]
  ring

theorem shapeMagnitude_mono (pEff : Nat) {a a' : Nat} (h : a ≤ a') : shapeMagnitude pEff a ≤ shapeMagnitude pEff a' := by
  simp only [shapeMagnitude_eq_weightedMean]
  exact Nat.div_le_div_right <| Nat.add_le_add
    (Nat.mul_le_mul_right _ (Nat.sub_le_sub_left (lowerPower_anti pEff h) _))
    (Nat.mul_le_mul_right _ (Nat.sub_le_sub_left (upperPower_anti pEff h) _))

/-- The curve lies on or above the identity: no power of `u` rises above `u` (R195). -/
theorem le_shapeMagnitude (pEff : Nat) {a : Nat} (h : a ≤ 32768) : a ≤ shapeMagnitude pEff a := by
  have hlower := lowerPower_le pEff a
  rw [shapeMagnitude_eq]
  omega

theorem shapeMagnitude_zero (pEff : Nat) : shapeMagnitude pEff 0 = 0 := by
  have hlower : lowerPower pEff 0 = 32768 := powLoop_fullScale _
  have hupper : upperPower pEff 0 = 32768 := by rw [upperPower, hlower]; rfl
  rw [shapeMagnitude_eq, hlower, hupper]
  simp

/-- At full scale the identity and the upper bound meet. -/
theorem shapeMagnitude_fullScale (pEff : Nat) : shapeMagnitude pEff 32768 = 32768 :=
  (shapeMagnitude_le pEff 32768).antisymm (le_shapeMagnitude pEff le_rfl)

/-- No difference in the curve is cut at 0, so it may be read on integers (R192). -/
theorem shapeMagnitude_cast (pEff a : Nat) :
    (shapeMagnitude pEff a : Int) =
      (32768 - (lowerPower pEff a : Int)) +
        ((32768 - (upperPower pEff a : Int)) - (32768 - (lowerPower pEff a : Int))) * (pEff % 2 ^ 16 : Nat) / 2 ^ 16 := by
  have hlower : lowerPower pEff a ≤ 32768 := (lowerPower_le pEff a).trans (Nat.sub_le ..)
  have hupper : upperPower pEff a ≤ 32768 := (upperPower_le pEff a).trans hlower
  have hy : 32768 - lowerPower pEff a ≤ 32768 - upperPower pEff a := Nat.sub_le_sub_left (upperPower_le pEff a) _
  rw [shapeMagnitude_eq]
  push_cast [hlower, hupper, hy]
  rfl

/-! ### The curve on a signed value -/

section shape
variable (c : Params) (b : Bank)

theorem shape_of_nonneg {d : Int} (h : 0 ≤ d) :
    shape c b d = shapeMagnitude (effectivePower c b) (min d.natAbs 32768) := if_neg (not_lt.2 h)

theorem shape_of_neg {d : Int} (h : d < 0) :
    shape c b d = -(shapeMagnitude (effectivePower c b) (min d.natAbs 32768) : Int) := if_pos h

theorem shape_zero : shape c b 0 = 0 := by
  rw [shape_of_nonneg c b le_rfl]
  exact congrArg Nat.cast (shapeMagnitude_zero _)

theorem shape_neg (d : Int) : shape c b (-d) = -shape c b d := by
  rcases lt_trichotomy d 0 with hneg | rfl | hpos
  · rw [shape_of_nonneg c b (neg_nonneg.2 hneg.le), shape_of_neg c b hneg, Int.natAbs_neg, neg_neg]
  · rw [neg_zero, shape_zero, neg_zero]
  · rw [shape_of_neg c b (neg_neg_of_pos hpos), shape_of_nonneg c b hpos.le, Int.natAbs_neg]

/-- An odd function that rises on the magnitudes rises everywhere. -/
theorem shape_monotone : Monotone (shape c b) := by
  refine monotone_of_odd_of_monotoneOn_nonneg (shape_neg c b) fun d hd d' hd' hle => ?_
  have hmag : d.natAbs ≤ d'.natAbs := by rw [Set.mem_Ici] at hd; omega
  rw [shape_of_nonneg c b hd, shape_of_nonneg c b hd']
  exact Int.ofNat_le.2 (shapeMagnitude_mono _ (min_le_min_right _ hmag))

theorem shape_of_fullScale_le {d : Int} (h : 32768 ≤ d) : shape c b d = 32768 := by
  have hclip : min d.natAbs 32768 = 32768 := by omega
  rw [shape_of_nonneg c b (by omega), hclip, shapeMagnitude_fullScale]
  rfl

theorem shape_of_le_neg_fullScale {d : Int} (h : d ≤ -32768) : shape c b d = -32768 := by
  have hopp : shape c b (-d) = 32768 := shape_of_fullScale_le c b (by omega)
  rw [shape_neg] at hopp
  omega

theorem le_shape {d : Int} (h0 : 0 ≤ d) (h : d ≤ 32768) : d ≤ shape c b d := by
  have hmag := le_shapeMagnitude (effectivePower c b) (min_le_right d.natAbs 32768)
  rw [shape_of_nonneg c b h0]
  omega

end shape

/-- Settles O53: the three steps in integers are the model's, the power loop as a repeated product; the shape is that of the curve on
magnitudes, carried over to the signs. -/
theorem waveshaperCurveShape : Obligations.WaveshaperCurveShape := by
  intro c b
  refine ⟨fun _ => rfl, fun _ => rfl, fun _ => rfl, fun d => ?_, shape_zero c b, fun d => abs_le.1 (abs_shape_le c b d),
    fun _ => shape_of_fullScale_le c b, fun _ => shape_of_le_neg_fullScale c b, shape_neg c b,
    fun _ _ hle => shape_monotone c b hle, fun _ => le_shape c b⟩
  intro pEff n fr u pw pw1 y0 y1 y
  have hpw : lowerPower pEff (min d.natAbs 32768) = pw := powLoop_eq_iterate u (n - 1)
  have hpw1 : upperPower pEff (min d.natAbs 32768) = pw1 := congrArg (powStep u) hpw
  have hmag : (shapeMagnitude pEff (min d.natAbs 32768) : Int) = y := by
    rw [shapeMagnitude_cast, hpw, hpw1]
  rw [← hmag]
  rfl

end Sys2Proof.Machine
end

section
/-! PROOFS. The Leslie rotor: the slew-rate limiter of its speed (O40) and the gain it puts on the signal (O55); and the frame of a live
sample step, which turns the rotor and moves the sounding slots (O60). -/

namespace Sys2Proof.Machine

/-! ### The speed ramp -/

/-- A live chunk start leaves the rotor at the end of the ramp toward the new bank's target (R201, R202, R218). -/
theorem chunkStart_live_leslieCur_toNat {s : State} (h : s.inited = true) :
    (chunkStart s).leslieCur.toNat =
      leslieRamp s.leslieCur.toNat (leslieTarget s.shadow) (leslieStep s.cfg s.sr (min chunkSize s.seq.rem.toNat)) := by
  rw [chunkStart_live s h, prep_leslieCur_toNat]
  rfl

section leslieRamp
variable {cur tgt : Nat} (step : Nat)

theorem leslieRamp_of_lt (h : cur < tgt) : leslieRamp cur tgt step = min tgt (cur + step) := if_pos h

theorem leslieRamp_of_gt (h : tgt < cur) : leslieRamp cur tgt step = max tgt (cur - step) := by
  rw [leslieRamp, if_neg h.not_gt, if_pos h]

theorem leslieRamp_of_eq (h : cur = tgt) : leslieRamp cur tgt step = cur := by
  rw [leslieRamp, if_neg h.not_lt, if_neg h.not_gt]

end leslieRamp

/-- The ramp changes the speed by at most the step, on whichever side of the target it starts (R202). -/
theorem leslieRamp_within_step (cur tgt step : Nat) :
    leslieRamp cur tgt step ≤ cur + step ∧ cur ≤ leslieRamp cur tgt step + step := by
  rcases lt_trichotomy cur tgt with hlt | heq | hgt
  · rw [leslieRamp_of_lt step hlt]; omega
  · rw [leslieRamp_of_eq step heq]; omega
  · rw [leslieRamp_of_gt step hgt]; omega

/-- Settles O40: the speed after a live chunk start is the ramp's, and the ramp is taken side by side of the target. -/
theorem rotorSpeedMovesByABoundedStep : Obligations.RotorSpeedMovesByABoundedStep := by
  intro s hin t tgt stp
  have hcur : t.leslieCur.toNat = leslieRamp s.leslieCur.toNat tgt stp := chunkStart_live_leslieCur_toNat hin
  refine ⟨fun hlt => ?_, fun hgt => ?_, fun heq => BitVec.eq_of_toNat_eq ?_, ?_⟩
  · rw [hcur, leslieRamp_of_lt stp hlt]
  · rw [hcur, leslieRamp_of_gt stp hgt]
  · rw [hcur, leslieRamp_of_eq stp heq]
  · rw [hcur]
    exact leslieRamp_within_step ..

/-! ### The gain and its application -/

theorem leslieGain_eq (c : Params) (phase : Word) :
    leslieGain c phase = 32768 - (c.leslieDepth.toNat : Int) * (32768 - sineAt c phase) / 2 ^ 16 := rfl

theorem leslieApply_eq (c : Params) (phase : Word) (g : Int) : leslieApply c phase g = g * leslieGain c phase / 2 ^ 15 := rfl

/-- A rotor of depth 0 has unit gain at every phase (R204). -/
theorem leslieGain_of_depth_zero {c : Params} (h : c.leslieDepth = 0) (phase : Word) : leslieGain c phase = 32768 := by
  rw [leslieGain_eq, h]
  simp

/-- The gain dips below 1.0 by at most the depth: the sine entry takes `32768 - s` from just above 0 to just below `2 ^ 16` (R204). -/
theorem leslieGain_bounds {c : Params} (h : c.sineRangeOk) (phase : Word) :
    32768 - (c.leslieDepth.toNat : Int) ≤ leslieGain c phase ∧ leslieGain c phase ≤ 32768 := by
  obtain ⟨hlo, hhi⟩ := abs_le.1 (abs_sineAt_le h phase)
  have hdepth : (0 : Int) ≤ c.leslieDepth.toNat := Int.natCast_nonneg _
  have hdip : 0 ≤ (c.leslieDepth.toNat : Int) * (32768 - sineAt c phase) / 2 ^ 16 :=
    Int.ediv_nonneg (mul_nonneg hdepth (by omega)) (by norm_num)
  have hdip' : (c.leslieDepth.toNat : Int) * (32768 - sineAt c phase) / 2 ^ 16 ≤ c.leslieDepth.toNat :=
    Int.ediv_le_of_le_mul (by norm_num) (mul_le_mul_of_nonneg_left (by omega) hdepth)
  rw [leslieGain_eq]
  omega

/-- With the sine and the depth in range the gain is a UQ1.15 factor of at most 1.0, so it keeps a bound (R204, R224). -/
theorem abs_leslieApply_le {c : Params} (hsine : c.sineRangeOk) (hdepth : c.leslieDepthOk) (phase : Word) (g : Int) :
    |leslieApply c phase g| ≤ |g| := by
  obtain ⟨hlo, hhi⟩ := leslieGain_bounds hsine phase
  obtain ⟨k, hk⟩ := Int.eq_ofNat_of_zero_le (show 0 ≤ leslieGain c phase by omega)
  rw [leslieApply, hk]
  exact abs_asr_mul_le le_rfl (by omega)

/-- Settles O55: the equations are the model's; depth 0 is unit gain, and within the ranges of R7 the gain is at most 1.0. -/
theorem leslieNeverAmplifies : Obligations.LeslieNeverAmplifies := by
  intro c phase
  refine ⟨leslieGain_eq c phase, leslieApply_eq c phase, fun hzero g => ?_, fun hsine hdepth => ?_⟩
  · rw [leslieApply_eq, leslieGain_of_depth_zero hzero]
    exact Int.mul_ediv_cancel g (by norm_num)
  · obtain ⟨hlo, hhi⟩ := leslieGain_bounds hsine phase
    exact ⟨hlo, hhi, fun g => Int.natAbs_le_iff_sq_le.2 (sq_le_sq.2 (abs_leslieApply_le hsine hdepth phase g))⟩

/-! ### The frame of a sample step -/

theorem voiceNext_of_idle (c : Params) (mode : TimbreMode) (r : BlockRate) (inc : BitVec 48) {v : Voice} (h : v.stage = .idle) :
    voiceNext c mode r inc v = v := if_pos h

theorem voiceNext_of_sounding (c : Params) (mode : TimbreMode) (r : BlockRate) (inc : BitVec 48) {v : Voice}
    (h : v.stage ≠ .idle) : voiceNext c mode r inc v = envStep r { v with phase := oscAdvance c mode inc v } := if_neg h

/-- The slots after a sample of a live chunk, each moved by itself (R220). -/
theorem sampleStep_live_voices {s : State} (h : s.seq.live = true) :
    (sampleStep s).pool.voices =
      s.pool.voices.zipIdx.map fun x => voiceNext s.cfg s.active.mode s.br (s.br.incOf x.2) x.1 := by
  rw [sampleStep_pool, if_pos h]
  rfl

theorem sampleStep_live_voices_getElem? {s : State} (h : s.seq.live = true) {i : Nat} {v : Voice}
    (hv : s.pool.voices[i]? = some v) :
    (sampleStep s).pool.voices[i]? = some (voiceNext s.cfg s.active.mode s.br (s.br.incOf i) v) := by
  rw [sampleStep_live_voices h, List.getElem?_map, List.getElem?_zipIdx, hv]
  simp

/-- A sample step, live or silent, writes the slots, the rotor phase, the output space, the sequencer and `rendering` only (R205, R216,
R220). -/
theorem sampleStep_frame (s : State) :
    sampleStep s = { s with
      pool := { s.pool with voices := (sampleStep s).pool.voices }
      rotorPhase := (sampleStep s).rotorPhase
      out := (sampleStep s).out
      seq := { s.seq with sIdx := s.seq.sIdx + 1, rem := s.seq.rem - 1, left := s.seq.left - 1 }
      rendering := if s.seq.rem - 1 = 0 then false else s.rendering } := by
  unfold sampleStep; split <;> rfl

/-- Settles O60: slot by slot, the slot's own stage decides whether it moves. -/
theorem liveSampleStepFrame : Obligations.LiveSampleStepFrame := by
  intro s hlive t
  refine ⟨?_, ?_, fun i v hv => ?_, sampleStep_frame s⟩
  · rw [sampleStep_rotorPhase, if_pos hlive, BitVec.toNat_add]
  · rw [sampleStep_live_voices hlive, List.length_map, List.length_zipIdx]
  · have hslot := sampleStep_live_voices_getElem? hlive hv
    refine ⟨fun hidle => ?_, fun hsounds => ?_⟩
    · rw [hslot, voiceNext_of_idle _ _ _ _ hidle]
    · rw [hslot, voiceNext_of_sounding _ _ _ _ hsounds]

end Sys2Proof.Machine
end

section
/-! PROOFS. The render sequencer: which step the engine takes (O11), the acceptance of a RENDER (O27), the start of a silent chunk and its
samples (O37), and the six parts of PREP (O38). -/

namespace Sys2Proof.Machine

/-! ### The enabled step of the engine -/

/-- With no sample of the chunk left the engine starts a chunk (R216). -/
theorem engineStep_of_left_zero {s : State} (hren : s.rendering = true) (hleft : s.seq.left = 0) :
    engineStep s = chunkStart s := by
  rw [engineStep, if_pos hren, if_pos hleft]

/-- With samples of the chunk left the engine takes one of them (R216). -/
theorem engineStep_of_left_pos {s : State} (hren : s.rendering = true) (hleft : 0 < s.seq.left) :
    engineStep s = sampleStep s := by
  rw [engineStep, if_pos hren, if_neg hleft.ne']

/-- Settles O11: taking the turn leaves `rendering` and the sequencer, which decide the enabled step. -/
theorem engineTakesTheEnabledStep : Obligations.EngineTakesTheEnabledStep := by
  refine ⟨fun s hturn hren hleft => ?_, fun s hturn hren hleft => ?_⟩
  · rw [step_engine hturn, engineStep_of_left_zero (by rwa [takeTurn_rendering]) (by rwa [takeTurn_seq])]
  · rw [step_engine hturn, engineStep_of_left_pos (by rwa [takeTurn_rendering]) (by rwa [takeTurn_seq])]

/-! ### The acceptance of a RENDER -/

/-- A RENDER of at least one sample opens a new output space and starts rendering (R215). -/
theorem execRender_of_ne_zero {n : Word} (h : n ≠ 0) (ch : BitVec 8) (s : State) :
    execRender ch n s =
      .next { s with seq := ⟨ch, n, 0, 0, false⟩, rendering := true, renderNo := s.renderNo + 1 } := by
  rw [execRender, if_neg h, bne_iff_ne.2 h]

/-- A RENDER of no samples loads the sequencer and starts nothing (R215, log entry 7). -/
theorem execRender_zero (ch : BitVec 8) (s : State) :
    execRender ch 0 s = .next { s with seq := ⟨ch, 0, 0, 0, false⟩, rendering := false } := rfl

/-- Settles O27: the meaning of RENDER, with and without samples to render. -/
theorem renderIsAccepted : Obligations.RenderIsAccepted :=
  fun ch _ s => ⟨fun h => execRender_of_ne_zero h ch s, execRender_zero ch s⟩

/-! ### Silent chunks -/

/-- The start of a silent chunk opens the chunk and sets NOTINIT (R216, R227). -/
theorem chunkStart_silent_frame {s : State} (h : s.inited = false) :
    chunkStart s = { s with
      seq := { s.seq with left := min chunkSize s.seq.rem.toNat, live := false }
      flags := { s.flags with notInit := true } } := by
  rw [chunkStart_silent s h, openChunk, h]
  rfl

/-- A silent sample is 0 and leaves the slots and the rotor alone (R216, R227). -/
theorem sampleStep_silent_frame {s : State} (h : s.seq.live = false) :
    sampleStep s = { s with
      out := s.out.writeChannels s.renderNo s.seq.sIdx.toNat s.seq.chN.toNat 0
      seq := { s.seq with sIdx := s.seq.sIdx + 1, rem := s.seq.rem - 1, left := s.seq.left - 1 }
      rendering := if s.seq.rem - 1 = 0 then false else s.rendering } := by
  rw [sampleStep_frame, sampleStep_pool, sampleStep_rotorPhase, sampleStep_out, h]
  rfl

/-- Settles O37: the frames of the two steps of a silent chunk. -/
theorem silentChunksTouchNoEngineState : Obligations.SilentChunksTouchNoEngineState :=
  ⟨fun _ => chunkStart_silent_frame, fun _ => sampleStep_silent_frame⟩

/-! ### PREP -/

/-- A live chunk start writes the sequencer and what PREP writes, and nothing else (R216, R217). -/
theorem chunkStart_live_frame {s : State} (h : s.inited = true) :
    chunkStart s = { s with
      active := (chunkStart s).active, evq := (chunkStart s).evq, pool := (chunkStart s).pool
      leslieCur := (chunkStart s).leslieCur, vibPhase := (chunkStart s).vibPhase, br := (chunkStart s).br
      seq := { s.seq with left := min chunkSize s.seq.rem.toNat, live := true } } := by
  rw [chunkStart_live s h, prep_frame, openChunk, h]

/-- The block-rate registers after a live chunk start: the envelope constants, then the registers of the rotor, the vibrato and the
pitch (R217). -/
theorem chunkStart_live_br {s : State} (h : s.inited = true) :
    (chunkStart s).br = { envelopeConstants s.shadow s.sr s.br with
      rotorInc := rotorIncrement s.cfg s.sr (chunkStart s).leslieCur
      vib := vibratoFactor s.cfg s.shadow s.vibPhase
      g := globalFactor s.shadow (vibratoFactor s.cfg s.shadow s.vibPhase)
      incHalf := (chunkStart s).pool.voices.map fun v => baseIncrement s.sr v.freq (chunkStart s).br.g } := by
  rw [chunkStart_live_g h, chunkStart_live_vib h, chunkStart_live s h, prep_br]
  rfl

/-- Settles O38: each part of PREP as it stands after a live chunk start, the frame of all six, and the two equations of the fold over
the events. -/
theorem prepDoesItsSixParts : Obligations.PrepDoesItsSixParts := by
  refine ⟨?_, fun _ _ _ => rfl, fun _ _ _ _ _ => rfl⟩
  intro s hin t len drained env
  have ht : t = prep len (openChunk s) := chunkStart_live s hin
  have hactive : t.active = s.shadow := by rw [ht, prep_active, openChunk_shadow]
  have hqueue : t.evq = [] := by rw [ht, prep_evq]
  have hpool : t.pool = { drained with voices := drained.voices.map (stageTransition env) } := by
    rw [ht, prep_pool]
    rfl
  have hvib : t.vibPhase.toNat = (s.vibPhase.toNat + len * s.vibInc.toNat) % 2 ^ 32 := by
    rw [chunkStart_live_vibPhase hin, BitVec.toNat_ofNat]
    rfl
  exact ⟨hactive, hqueue, hpool, chunkStart_live_leslieCur_toNat hin, hvib, chunkStart_live_br hin, chunkStart_live_frame hin⟩

end Sys2Proof.Machine
end

section
/-! PROOFS. The ends of the signal path: the velocity amplitude (O56), master volume and saturation (O57), and silence, which every stage
from the mix to the output keeps (O58). -/

namespace Sys2Proof.Machine

/-! ### The velocity amplitude -/

/-- `Amp` on the limited sensitivity (R222). -/
theorem amplitude_eq (b : Bank) (v : Voice) :
    amplitude b v = (32768 - lim15 b.p[regVelSens]) + lim15 b.p[regVelSens] * v.vel.toNat / 127 := rfl

/-- Without sensitivity every velocity is full amplitude (R222). -/
theorem amplitude_of_insensitive {b : Bank} (h : lim15 b.p[regVelSens] = 0) (v : Voice) : amplitude b v = 32768 := by
  rw [amplitude_eq, h, Nat.zero_mul]

/-- At full sensitivity velocity 0 is silent (R222). -/
theorem amplitude_of_vel_zero {b : Bank} {v : Voice} (h : lim15 b.p[regVelSens] = 32768) (hvel : v.vel = 0) :
    amplitude b v = 0 := by
  rw [amplitude_eq, h, hvel]
  rfl

/-- The highest velocity is full amplitude at every sensitivity (R222). -/
theorem amplitude_of_vel_max {v : Voice} (h : v.vel = 127) (b : Bank) : amplitude b v = 32768 := by
  have hvel : v.vel.toNat = 127 := by rw [h]; rfl
  rw [amplitude_eq, hvel, Nat.mul_div_cancel _ (by norm_num), Nat.sub_add_cancel (lim15_le _)]

/-- Settles O56: the amplitude in integers, its bound and its end points. -/
theorem velocityAmplitude : Obligations.VelocityAmplitude :=
  fun b v => ⟨amplitude_eq b v, amplitude_le b v, fun h => amplitude_of_insensitive h v, amplitude_of_vel_zero,
    fun h => amplitude_of_vel_max h b⟩

/-! ### Master volume -/

/-- No signal, or no volume, is a sample of 0: the product is 0 (R226). -/
theorem master_eq_zero_of_mul {b : Bank} {l : Int} (h : l * lim15 b.p[regMasterVol] = 0) : master b l = 0 := by
  rw [master, h]
  rfl

/-- A master volume of 0 silences every signal (R226). -/
theorem master_of_volume_zero {b : Bank} (h : b.p[regMasterVol] = 0) (l : Int) : master b l = 0 := by
  have hlim : lim15 b.p[regMasterVol] = 0 := by rw [h]; rfl
  exact master_eq_zero_of_mul (by rw [hlim, Nat.cast_zero, mul_zero])

/-- Settles O57: `Master` in integers, and its zero. -/
theorem masterVolumeAndSaturation : Obligations.MasterVolumeAndSaturation :=
  ⟨master_toInt, fun _ h => master_of_volume_zero h _⟩

/-! ### Silence -/

/-- The mix of a pool of Idle slots is 0 (R220). -/
theorem mixVoices_of_idle {s : State} (h : ∀ v ∈ s.pool.voices, v.stage = .idle) : mixVoices s = 0 := by
  refine List.sum_eq_zero fun y hy => ?_
  obtain ⟨x, hx, rfl⟩ := List.mem_map.1 hy
  exact voiceOut_of_idle _ _ _ (h x.1 (List.fst_mem_of_mem_zipIdx hx))

/-- The waveshaper has no offset: Drive, Shape and Gain each take 0 to 0 (R190, R195). -/
theorem distort_zero (c : Params) (b : Bank) : distort c b 0 = 0 := by
  have hdrive : drive b 0 = 0 := by rw [drive, zero_mul]; rfl
  have hgain : gain b 0 = 0 := by rw [gain, zero_mul]; rfl
  rw [distort, hdrive, shape_zero, hgain]

/-- The rotor modulates silence to silence (R204). -/
theorem leslieApply_zero (c : Params) (phase : Word) : leslieApply c phase 0 = 0 := by
  rw [leslieApply_eq, zero_mul, Int.zero_ediv]

/-- Every stage after the mix keeps silence (R220). -/
theorem sampleOut_of_mix_zero {s : State} (h : mixVoices s = 0) : sampleOut s = 0 := by
  rw [sampleOut, h, distort_zero, leslieApply_zero]
  exact master_eq_zero_of_mul (zero_mul _)

/-- A SAMPLE moves no slot of a pool of Idle slots (R220). -/
theorem voiceNext_map_of_idle {vs : List Voice} (h : ∀ v ∈ vs, v.stage = .idle) (c : Params) (mode : TimbreMode)
    (r : BlockRate) : (vs.zipIdx.map fun x => voiceNext c mode r (r.incOf x.2) x.1) = vs :=
  calc (vs.zipIdx.map fun x => voiceNext c mode r (r.incOf x.2) x.1)
      = vs.zipIdx.map Prod.fst :=
        List.map_congr_left fun x hx => voiceNext_of_idle _ _ _ _ (h x.1 (List.fst_mem_of_mem_zipIdx hx))
    _ = vs := List.zipIdx_map_fst ..

/-- Settles O58: silence goes in and stays silence, and of the engine only the rotor turns. -/
theorem silenceWithoutVoices : Obligations.SilenceWithoutVoices := by
  refine fun s hidle => ⟨sampleOut_of_mix_zero (mixVoices_of_idle hidle), ?_⟩
  rw [sampleNext, voiceNext_map_of_idle hidle]

end Sys2Proof.Machine
end

section
/-! PROOFS. The parameter commands (O21 to O26): each is one access to a bank of REG behind the lifecycle check, so a write and a read
are settled once, for any bank, and the commands differ in the bank they name. -/

namespace Sys2Proof.Machine

/-! ### One register of a bank -/

/-- A written register reads the value, the others what they held (R76). -/
theorem getElem_set_fin {n k : Nat} (regs : Vector Word n) (value : Word) (h : k < n) (r : Fin n) :
    (regs.set k value h)[r] = if r.val = k then value else regs[r] := by
  simp only [Fin.getElem_fin, Vector.getElem_set, eq_comm]

/-- A read by an assigned number finds the register of that number (R76). -/
theorem getElem?_eq_some_fin {n k : Nat} (regs : Vector Word n) {r : Fin n} (h : k = r.val) : regs[k]? = some regs[r] := by
  rw [h]; exact Vector.getElem?_eq_getElem r.isLt

/-- SRATE is the one number 0x0F (R41). -/
theorem eq_srateNumber_iff (reg : BitVec 8) : reg = srateNumber ↔ reg.toNat = 0x0F := BitVec.toNat_inj.symm

/-- Below SRATE, and at the unassigned numbers, RDP reads the parameter bank (R241). -/
theorem execRdp_of_ne_srate {reg : BitVec 8} (h : reg.toNat ≠ 0x0F) (s : State) :
    execRdp reg s = .next (whenInitedResp s (answer (s.shadow.readParam reg) s)) := by
  rw [execRdp, if_neg (mt (eq_srateNumber_iff reg).1 h)]

/-! ### One access behind the lifecycle check -/

section access
variable {i : Instr} {s : State}

/-- What a command that writes a bank of `n` registers does: the bank with the register written, BADIDX where the number is
unassigned, NOTINIT before INIT (R76, R279). -/
theorem exec_writeRegister {n : Nat} {number : BitVec 8} {b : Option Bank} {written : number.toNat < n → Bank}
    (hexec : exec i s = .next (whenInited s (storeShadow b s)))
    (hwrite : (∃ h, b = some (written h)) ∨ (n ≤ number.toNat ∧ b = none)) :
    (s.inited = true → ∀ h, exec i s = .next { s with shadow := written h }) ∧
    (s.inited = true → n ≤ number.toNat → exec i s = .next { s with flags := { s.flags with badIdx := true } }) ∧
    (s.inited = false → exec i s = .next { s with flags := { s.flags with notInit := true } }) := by
  rw [hexec]
  rcases whenInited_cases s (storeShadow b s) with ⟨hinit, hdone⟩ | ⟨hinit, hdone⟩ <;> rw [hdone]
  · rcases hwrite with ⟨hlt, rfl⟩ | ⟨hge, rfl⟩
    · exact ⟨fun _ _ => rfl, fun _ hge => absurd hlt hge.not_gt, by simp [hinit]⟩
    · exact ⟨fun _ hlt => absurd hlt hge.not_gt, fun _ _ => rfl, by simp [hinit]⟩
  · simp [hinit]

/-- What a command that answers a register does: the value found, 0 with BADIDX where there is none, 0 with NOTINIT before INIT
(R76, R279). -/
theorem exec_readRegister {v : Option Word} (hexec : exec i s = .next (whenInitedResp s (answer v s))) :
    (∀ w, s.inited = true → v = some w → exec i s = .next { s with resp := s.resp ++ [w] }) ∧
    (s.inited = true → v = none →
      exec i s = .next { s with resp := s.resp ++ [0], flags := { s.flags with badIdx := true } }) ∧
    (s.inited = false →
      exec i s = .next { s with resp := s.resp ++ [0], flags := { s.flags with notInit := true } }) := by
  rw [hexec]
  rcases whenInitedResp_cases s (answer v s) with ⟨hinit, hdone⟩ | ⟨hinit, hdone⟩ <;> rw [hdone]
  · exact ⟨fun w _ hv => hv ▸ rfl, fun _ hv => hv ▸ rfl, by simp [hinit]⟩
  · simp [hinit]

/-- The same for a command that reads a bank of `n + 1` registers by number (R76, R279). -/
theorem exec_readBank {n : Nat} {regs : Vector Word (n + 1)} {number : BitVec 8}
    (hexec : exec i s = .next (whenInitedResp s (answer regs[number.toNat]? s))) :
    (∀ r : Fin (n + 1), s.inited = true → number.toNat = r.val →
      exec i s = .next { s with resp := s.resp ++ [regs[r]] }) ∧
    (s.inited = true → n < number.toNat →
      exec i s = .next { s with resp := s.resp ++ [0], flags := { s.flags with badIdx := true } }) ∧
    (s.inited = false →
      exec i s = .next { s with resp := s.resp ++ [0], flags := { s.flags with notInit := true } }) := by
  obtain ⟨hfound, hnone, hcold⟩ := exec_readRegister hexec
  exact ⟨fun r hinit hr => hfound _ hinit (getElem?_eq_some_fin regs hr),
    fun hinit hgt => hnone hinit (Vector.getElem?_eq_none hgt), hcold⟩

end access

/-! ### The writes -/

/-- Settles O21: a checked write of bank 0. -/
theorem wrpWritesOneRegister : Obligations.WrpWritesOneRegister := by
  intro reg value s
  obtain ⟨hstore, hbad, hcold⟩ :=
    exec_writeRegister (i := .wrp reg value) rfl (writeParam_cases s.shadow reg value)
  exact ⟨fun hinit hle => ⟨_, hstore hinit (Nat.lt_succ_of_le hle), getElem_set_fin _ _ _⟩, hbad, hcold⟩

/-- Settles O23: a checked write of bank 1. -/
theorem setdbWritesOneDrawbar : Obligations.SetdbWritesOneDrawbar := by
  intro index value s
  obtain ⟨hstore, hbad, hcold⟩ :=
    exec_writeRegister (i := .setdb index value) rfl (writeDrawbar_cases s.shadow index value)
  exact ⟨fun hinit hle => ⟨_, hstore hinit (Nat.lt_succ_of_le hle), getElem_set_fin _ _ _⟩, hbad, hcold⟩

/-- Settles O25: a checked write of bank 2. -/
theorem sethlWritesOneHarmonic : Obligations.SethlWritesOneHarmonic := by
  intro index value s
  obtain ⟨hstore, hbad, hcold⟩ :=
    exec_writeRegister (i := .sethl index value) rfl (writeHarmonic_cases s.shadow index value)
  exact ⟨fun hinit hle => ⟨_, hstore hinit (Nat.lt_succ_of_le hle), getElem_set_fin _ _ _⟩, hbad, hcold⟩

/-! ### The reads -/

/-- Settles O22: SRATE is a checked read of the sample rate, any other number one of bank 0. -/
theorem rdpAnswersOneRegister : Obligations.RdpAnswersOneRegister := by
  intro reg s
  by_cases hsrate : reg.toNat = 0x0F
  · obtain ⟨hfound, -, hcold⟩ := exec_readRegister (i := .rdp reg) (s := s) rfl
    exact ⟨fun hinit _ => hfound _ hinit (if_pos ((eq_srateNumber_iff reg).2 hsrate)),
      fun r _ hr => absurd (hr ▸ hsrate) (by omega), fun _ _ hne => absurd hsrate hne, hcold⟩
  · obtain ⟨hfound, hnone, hcold⟩ := exec_readBank (i := .rdp reg) (execRdp_of_ne_srate hsrate s)
    exact ⟨fun _ h => absurd h hsrate, hfound, fun hinit hgt _ => hnone hinit hgt, hcold⟩

/-- Settles O24: a checked read of bank 1. -/
theorem getdbAnswersOneDrawbar : Obligations.GetdbAnswersOneDrawbar :=
  fun index _ => exec_readBank (i := .getdb index) rfl

/-- Settles O26: a checked read of bank 2. -/
theorem gethlAnswersOneHarmonic : Obligations.GethlAnswersOneHarmonic :=
  fun index _ => exec_readBank (i := .gethl index) rfl

end Sys2Proof.Machine
end

section
/-! PROOFS. The lifecycle commands (O15, O16, O17) and the discard of an illegal word (O9). -/

namespace Sys2Proof.Machine

/-! ### INIT and DEINIT -/

/-- Where the quotient of R54 fits the register, `vibInc` is that quotient. -/
theorem vibIncOf_toNat {c : Params} {sr : Word} (h : c.vibRate.toNat * 65536 / sr.toNat < 2 ^ 32) :
    (vibIncOf c sr).toNat = c.vibRate.toNat * 65536 / sr.toNat := by
  rw [vibIncOf, fdiv, if_pos h]
  exact Nat.mod_eq_of_lt h

/-- A refused INIT answers the status it records, and nothing else of the state moves (R260). -/
theorem exec_init_of_status {sr : Word} {s : State} {status : BitVec 8} (hstatus : initStatus sr s = status) (h : status ≠ 0) :
    exec (.init sr) s = .next (recordStatus status s) := by
  subst hstatus
  exact execInit_of_refused h

/-- Settles O15: the state decides the status, and the status what INIT does. -/
theorem initAnswersItsStatus : Obligations.InitAnswersItsStatus := by
  intro sr s
  refine ⟨fun hin => ?_, fun hin hren => ?_, fun hin hren hrate => ?_, fun hin hren hmin hmax => ?_⟩
  · have hstatus : initStatus sr s = 2 := by simp [initStatus, hin]
    exact exec_init_of_status hstatus (by decide)
  · have hstatus : initStatus sr s = 3 := by simp [initStatus, hin, hren]
    exact exec_init_of_status hstatus (by decide)
  · have hstatus : initStatus sr s = 1 := by simp [initStatus, hin, hren, hrate]
    exact exec_init_of_status hstatus (by decide)
  · have hstatus : initStatus sr s = 0 := by simp [initStatus, hin, hren, hmin.not_gt, hmax.not_gt]
    exact ⟨vibIncOf s.cfg sr, vibIncOf_toNat, execInit_accepted hstatus⟩

/-- Settles O16: DEINIT is the clearing of `inited` behind the lifecycle check. -/
theorem deinitClearsInited : Obligations.DeinitClearsInited := by
  intro s
  rcases whenInited_cases s { s with inited := false } with ⟨hinit, hdone⟩ | ⟨hinit, hdone⟩
  · exact ⟨fun _ => congrArg _ hdone, by simp [hinit]⟩
  · exact ⟨by simp [hinit], fun _ => congrArg _ hdone⟩

/-! ### STATUS -/

/-- A field placed above everything a word holds adds its value at its place. -/
theorem toNat_or_field {n k v : Nat} {w : Word} (f : BitVec n) (hw : w.toNat = v) (hv : v < 2 ^ k) (hfits : k + n ≤ 32) :
    (w ||| f.setWidth 32 <<< k).toNat = v + 2 ^ k * f.toNat := by
  have hplaced : 2 ^ k * f.toNat < 2 ^ 32 := calc
    2 ^ k * f.toNat < 2 ^ k * 2 ^ n := Nat.mul_lt_mul_of_pos_left f.isLt (by positivity)
    _ = 2 ^ (k + n) := (pow_add ..).symm
    _ ≤ 2 ^ 32 := Nat.pow_le_pow_right (by decide) hfits
  have hfield : (f.setWidth 32 <<< k).toNat = 2 ^ k * f.toNat := by
    rw [BitVec.toNat_shiftLeft, BitVec.toNat_setWidth_of_le (by omega), Nat.shiftLeft_eq, Nat.mul_comm,
      Nat.mod_eq_of_lt hplaced]
  rw [BitVec.toNat_or, hfield, hw, Nat.or_comm, ← Nat.two_pow_add_eq_or_of_lt hv, Nat.add_comm]

/-- A bit of STATUS placed above everything a word holds. -/
theorem toNat_or_statusBit {k v : Nat} {w : Word} (b : Bool) (hw : w.toNat = v) (hv : v < 2 ^ k) (hfits : k + 1 ≤ 32) :
    (w ||| statusBit b k).toNat = v + 2 ^ k * b.toNat := by
  rw [statusBit, toNat_or_field _ hw hv hfits, BitVec.toNat_ofBool]

/-- STATUS as a number (R26): each field stands above those before it, from `inited` in bit 0 to `initStat` in bits 15:8. -/
theorem statusWord_toNat (s : State) :
    (statusWord s).toNat = s.inited.toNat + 2 * s.rendering.toNat + 16 * s.flags.badCmd.toNat + 32 * s.flags.badIdx.toNat +
      64 * s.flags.evqOvf.toNat + 128 * s.flags.notInit.toNat + 256 * s.initStat.toNat := by
  have bit := Bool.toNat_le
  have := bit s.inited; have := bit s.rendering; have := bit s.flags.badCmd
  have := bit s.flags.badIdx; have := bit s.flags.evqOvf; have := bit s.flags.notInit
  have hinited : (statusBit s.inited 0).toNat = s.inited.toNat := by cases s.inited <;> rfl
  have hrendering := toNat_or_statusBit (k := 1) s.rendering hinited (by omega) (by decide)
  have hbadCmd := toNat_or_statusBit (k := 4) s.flags.badCmd hrendering (by omega) (by decide)
  have hbadIdx := toNat_or_statusBit (k := 5) s.flags.badIdx hbadCmd (by omega) (by decide)
  have hevqOvf := toNat_or_statusBit (k := 6) s.flags.evqOvf hbadIdx (by omega) (by decide)
  have hnotInit := toNat_or_statusBit (k := 7) s.flags.notInit hevqOvf (by omega) (by decide)
  exact toNat_or_field (k := 8) s.initStat hnotInit (by omega) (by decide)

/-- Settles O17: the appended word is STATUS. -/
theorem rdstatAnswersStatus : Obligations.RdstatAnswersStatus := fun s => ⟨statusWord s, rfl, statusWord_toNat s⟩

/-! ### Illegal words -/

/-- An illegal word at a port raises BADCMD and does nothing else (R103, R277). -/
theorem runWord_error {p : Port} {w : CmdWord} {e : Illegal} (h : decodeAt p w = .error e) (s : State) :
    runWord p w s = .next { s with flags := { s.flags with badCmd := true } } := by
  simp only [runWord, h]; rfl

/-- During a RENDER the R-port takes no word (R73). -/
theorem fetchRender_busy {s : State} (h : s.rendering = true) : fetchRender s = none := if_pos h

/-- Settles O9: the port's turn fetches the word, and running it discards it; during a RENDER the R-port fetches none. -/
theorem illegalWordsAreDiscarded : Obligations.IllegalWordsAreDiscarded := by
  refine ⟨fun s w ws e hturn hin hd => ?_, fun s w ws e hturn hren hin hd => ?_, fun s hturn hren => ?_⟩
  · rw [step_eq_runTurn hturn, runTurn, fetchControl_cons hin, runPort, runWord_error hd, takeTurn_flags]
  · rw [step_eq_runTurn hturn, runTurn, fetchRender_cons hren hin, runPort, runWord_error hd, takeTurn_flags]
  · rw [step_eq_runTurn hturn, runTurn, fetchRender_busy (by rwa [takeTurn_rendering]), runPort]

end Sys2Proof.Machine
end
